-- ==== Sys2Proof/Word.lean ====
section
/-! DEFINITION. The word types of the Amjor A9 (R8, R19, R36): bytes, 32-bit words, 64-bit operation words, lane masks. -/
set_option autoImplicit false

namespace Sys2Proof

/-- One byte of memory. -/
abbrev Byte := BitVec 8

/-- One 32-bit register word (R19). -/
abbrev Word := BitVec 32

/-- One 64-bit word: a native operation (R36), a page-table entry (R403), a register pair. -/
abbrev DWord := BitVec 64

/-- One bit per lane of a warp, bit l for lane l (R19). -/
abbrev Mask := BitVec 32

/-- The 32 words of a vector value, lane 0 first (R19). A shorter list reads as zero above its end. -/
abbrev Lanes := List Word

/-- The word of lane `l`. -/
def Lanes.at (v : Lanes) (l : Nat) : Word := v.getD l 0#32

/-- The vector value whose lane `l` is `f l`. -/
def Lanes.ofFn (f : Nat → Word) : Lanes := (List.range 32).map f

/-- The same word in every lane. -/
def Lanes.splat (w : Word) : Lanes := List.replicate 32 w

/-- Is lane `l` in the mask? -/
def Mask.has (m : Mask) (l : Nat) : Bool := m.getLsbD l

/-- The mask whose bit `l` is `p l` for each of the 32 lanes. -/
def Mask.ofFn (p : Nat → Bool) : Mask := BitVec.ofNat 32 ((List.range 32).foldl (fun a l => if p l then a + 2 ^ l else a) 0)

/-- The lanes of a mask in increasing order (R12). -/
def Mask.lanes (m : Mask) : List Nat := (List.range 32).filter (fun l => m.has l)

/-- The mask of lane `l` alone. -/
def Mask.single (l : Nat) : Mask := Mask.ofFn (fun k => k == l)

/-- Every lane. -/
def Mask.full : Mask := 0xFFFFFFFF#32

end Sys2Proof
end

