-- ==== Sys2Proof/Syntax.lean ====
section
/-! DEFINITION. The instructions: the operand forms of the six formats (R36 to R49), one constructor for each native
opcode of R52, and one for each step of the part that is no instruction word (an engine's, the host's, the module's). -/
set_option autoImplicit false

namespace Sys2Proof

/-- The operand types of MOD.TYPE (R49), codes 0 to D in order. -/
inductive Ty
  | i32 | n32 | i64 | n64 | i16x2 | n16x2 | i8x4 | n8x4 | f32 | f64 | f16x2 | bf16x2 | cf16 | cf32
  deriving DecidableEq, Repr

/-- The rounding modes of MOD.RND (R39, R98). -/
inductive Rnd
  | rne | rtz | rup | rdn
  deriving DecidableEq, Repr

/-- The guard field G (R45): no guard, mask m0 to m11, or the lowest lane only. -/
inductive Guard
  | all | mask (k : Fin 12) | first
  deriving DecidableEq, Repr

/-- A source field (R46), without its reserved values: vector register, latch, scalar, constant word, integer literal
0 to 255, integer literal -128 to -1 (`nlit n` is n - 128), floating constant (R50). -/
inductive Src
  | vec (n : BitVec 8)
  | latch (k : BitVec 2)
  | scal (n : BitVec 9)
  | const (bank : BitVec 2) (word : BitVec 7)
  | lit (n : BitVec 8)
  | nlit (n : BitVec 7)
  | fc (k : BitVec 6)
  deriving DecidableEq, Repr

/-- The ORD field (R41). -/
inductive Order
  | rlx | acq | rel | ar
  deriving DecidableEq, Repr

/-- The SCOPE field (R41, R221). -/
inductive Scope
  | warp | gang | part | dom | sys
  deriving DecidableEq, Repr

/-- The CP field (R41). -/
inductive CachePolicy
  | normal | stream | keep | bypass
  deriving DecidableEq, Repr

/-- Format N (R39). -/
structure NOp where
  e : Bool
  v : Bool
  d : BitVec 9
  s0 : Src
  s1 : Src
  s2 : Src
  g : Guard
  rnd : Rnd
  ty : Ty
  deriving DecidableEq, Repr

/-- Format I (R40). -/
structure IOp where
  e : Bool
  v : Bool
  d : BitVec 9
  s0 : Src
  imm : Word
  deriving DecidableEq, Repr

/-- Format M, the load forms and PSET, PCLR, PQRY (R41, R176): `size` is the SIZE code, `sgn` and `np` are SX[0] and SX[1]. -/
structure LdOp where
  e : Bool
  v : Bool
  d : BitVec 9
  s0 : Src
  off : BitVec 20
  size : BitVec 3
  ord : Order
  scope : Scope
  cp : CachePolicy
  sgn : Bool
  np : Bool
  deriving DecidableEq, Repr

/-- Format M, the store forms (R42): `data` is the data source of bits [52:43]. -/
structure StOp where
  e : Bool
  data : Src
  s0 : Src
  off : BitVec 20
  size : BitVec 3
  ord : Order
  scope : Scope
  cp : CachePolicy
  deriving DecidableEq, Repr

/-- FENCE in format M (R213): `rf` is SX[0]. -/
structure FenceOp where
  e : Bool
  v : Bool
  d : BitVec 9
  ord : Order
  scope : Scope
  rf : Bool
  deriving DecidableEq, Repr

/-- Format A (R43): `aop` is the operation code of R205. -/
structure AOp where
  e : Bool
  v : Bool
  d : BitVec 9
  s0 : Src
  s1 : Src
  s2 : Src
  aop : BitVec 4
  ord : Order
  scope : Scope
  deriving DecidableEq, Repr

/-- Format B (R44). -/
structure BOp where
  e : Bool
  g : Guard
  tgt : Word
  s0 : Src
  deriving DecidableEq, Repr

/-- Format X (R44): `afmt` and `bfmt` are the six-bit format codes of R49, `x` is the engine-specific field [18:0]. -/
structure XOp where
  e : Bool
  v : Bool
  d : BitVec 9
  s0 : Src
  afmt : BitVec 6
  bfmt : BitVec 6
  ru : Bool
  x : BitVec 19
  deriving DecidableEq, Repr

/-! ### What the outside brings to an event -/

/-- The life-cycle states (R379). -/
inductive LifeCycle
  | blank | factory | field | fieldDebug | retired
  deriving DecidableEq, Repr

/-- A port as the supervisor creates it (R291 to R293). -/
structure PortInit where
  depth : Nat
  hostw : Bool
  sigen : Bool
  syssc : Bool
  pin : Bool
  home : Nat
  deriving DecidableEq, Repr

/-- A gain heap as the supervisor creates it (R318 to R320). -/
structure HeapInit where
  thresh : Word
  tol : Word
  tport : Nat
  home : Nat
  cap : Nat
  deriving DecidableEq, Repr

/-- What the supervisor installs from the directives of a context's code objects (R195, R275, R292, R301, R318):
ports in order, pattern entries of eight words, launch descriptors of 32 words with the number of their code object, heaps, and copy templates of 16 words by
index. -/
structure Install where
  ports : List PortInit
  pats : List (List Word)
  descs : List (Nat × List Word)
  heaps : List HeapInit
  tmpls : List (Nat × List Word)
  deriving DecidableEq, Repr

/-- One other member's part of a collective (R216 to R218): its rank, its parameters and its source element codes. -/
structure PeerPart where
  rank : Nat
  kind : Nat
  opr : Nat
  root : Nat
  efmt : BitVec 6
  afmt : BitVec 6
  count : Nat
  data : List DWord
  deriving DecidableEq, Repr

/-- One member of an ensemble at registration (R252): its rank, the launch when it runs on this package, the domain pages
it enters: page of its scratchpad window, readable, writable, with the TSO attribute. -/
structure EnsMember where
  rank : Nat
  launch : Option Nat
  pages : List (Nat × Bool × Bool × Bool)
  deriving DecidableEq, Repr

/-- The place of an error in a checked structure (R354). -/
inductive ErrSite
  | vreg (warp reg lane : Nat)
  | sreg (warp reg : Nat)
  | acc (quad seg : Nat)
  | gangMem (gang unit : Nat)
  | scratch (part ppa : Nat)
  | hbm (part ppa : Nat)
  | slot (ctx port index : Nat)
  | port (ctx port : Nat)
  | pattern (ctx pat : Nat)
  | barrier (gang bar : Nat)
  | heapEntry (ctx heap id : Nat)
  | timer (part handle : Nat)
  | cacheCopy (part : Nat)
  | fabric (link : Nat)
  | pcie (warp reply : Nat)
  | wholeContext (ctx : Nat)
  | partition (part : Nat)
  deriving DecidableEq, Repr

/-- A code key (R413): both public keys and its roles. -/
structure CodeKey where
  ed : BitVec 256
  mldsa : List Byte
  sup : Bool
  usr : Bool
  dbg : Bool
  deriving DecidableEq, Repr

/-- Who signed a request to the management controller, with both signatures over its bytes (R413, R415). -/
structure SignedRequest where
  byVendor : Bool
  ed : BitVec 256
  mldsa : List Byte
  body : List Byte
  sigEd : List Byte
  sigMldsa : List Byte
  serial : Nat
  operatorRoot : BitVec 384
  deriving DecidableEq, Repr

/-- The port of the management controller on which a command comes (R384): the network port, in a TLS 1.3 session that is mutually
authenticated or not, with the client's key; or the I3C port, from the module's host platform controller or not. -/
inductive McPort
  | net (bothWays : Bool) (client : BitVec 384)
  | i3c (platform : Bool)
  deriving DecidableEq, Repr

/-- What a DUMP asks for (R384, R385): whether a reset follows, and the scratchpad and HBM pages that it names, by PPA / 65536. -/
structure DumpOpts where
  reset : Bool := false
  pages : List Nat := []
  deriving DecidableEq, Repr

/-- What bring-up meets (R378): whether the wipe met an uncorrectable error, whether HBM fails to train, the fabric links that fail,
whether PCIe trains, the partition map of the management controller, and the supervisor objects it verifies. -/
structure BootInput where
  wipeError : Bool
  hbmError : Bool
  failedLinks : List Nat
  pcieUp : Bool
  partMap : List (List Nat)
  supObjects : List (List Byte)
  deriving DecidableEq, Repr

/-- A register with no row of its own that a write may name (R11, R246, R247, R249, R361, R377, R393): the low 32 bits of the value are
written; a bin takes its base from the low half and its limit from the high half; an aperture slot takes the PPA of its page, 0 for
none; the completion timeout is in ns. -/
inductive DevReg
  | pwstat (fn : Nat)
  | apstat (fn : Nat)
  | creation (fn offset : Nat)
  | aperture (fn slot : Nat)
  | dctl (ctx : Nat)
  | bin (ctx index slot : Nat)
  | completionTimeout (fn : Nat)
  deriving DecidableEq, Repr

/-- A wait as the debugger writes it (R351, R368): none, a line by its location / 128, a barrier wait, a JWAIT registration, a SLEEP
deadline. -/
inductive WaitEdit
  | none
  | line (key : Nat)
  | barrier (bar : Nat) (lanes phase stepEnd : Word)
  | jwait (pat d : Nat) (lanes stepEnd : Word)
  | sleep (sec ns : Nat)
  deriving DecidableEq, Repr

/-- An item of R351 or 16 bytes of gang memory, with the value that a debugger's edit writes (R368); a read ignores the value. Modes are
numbered 0 normal, 1 emulation, 2 user handler, 3 supervisor; a copy of a set is its number, completion, flags, cause and SEQ; batch 0
is the unsealed set, batch b is b + 1. -/
inductive EditTarget
  | vreg (warp reg : Nat) (lanes : Word) (vals : List Word)
  | sreg (warp reg : Nat) (val : Word)
  | special (warp num : Nat) (val : Word)
  | vpc (warp lane : Nat) (val : Word)
  | tag (warp : Nat) (vec : Bool) (reg lane cause : Nat) (addr : Word)
  | mode (warp mode : Nat)
  | held (warp : Nat) (lanes : Word)
  | rstateU (warp mode kwslot : Nat) (held : Word)
  | rstateS (warp : Nat) (regs : List Word) (mode kwslot : Nat) (held : Word) (wait : WaitEdit) (sets : List Word)
  | waitSet (warp mask : Nat) (lanes : Word)
  | wait (warp : Nat) (wait : WaitEdit)
  | batch (warp batch : Nat) (copies : List (Nat × Bool × Nat × Nat × Word))
  | group (warp q : Nat)
  | barrier (gang bar count arrived : Nat) (balance : Int) (phase : Word) (broken : Bool)
  | gangMem (gang unit : Nat) (bytes : List Byte)
  deriving DecidableEq, Repr

/-- The instructions and events, one constructor for each row of the opcode table, in its order. -/
inductive Instr
  /-- NOP (R53). -/
  | nop (o : NOp)
  /-- BRA (R259). -/
  | bra (o : BOp)
  /-- BRI (R259). -/
  | bri (o : BOp)
  /-- CALL (R259). -/
  | call (o : BOp)
  /-- RET (R259). -/
  | ret (o : BOp)
  /-- EXIT (R260). -/
  | exit (o : BOp)
  /-- ELECT (R261). -/
  | elect (o : NOp)
  /-- LOOP (R262). -/
  | loop (o : BOp)
  /-- LEND (R262). -/
  | lend (o : BOp)
  /-- YIELD (R263). -/
  | yield (o : NOp)
  /-- SLEEP (R263). -/
  | sleep (o : NOp)
  /-- TRAP (R264). -/
  | trap (o : IOp)
  /-- TRET (R346). -/
  | tret (o : NOp)
  /-- SIGNAL (R265). -/
  | signal (o : NOp)
  /-- RDSR (R266). -/
  | rdsr (o : IOp)
  /-- WRSR (R266). -/
  | wrsr (o : IOp)
  /-- BKPT (R264). -/
  | bkpt (o : IOp)
  /-- VADD (R111). -/
  | vadd (o : NOp)
  /-- VSUB (R111). -/
  | vsub (o : NOp)
  /-- VADDC (R112). -/
  | vaddc (o : NOp)
  /-- VSUBB (R112). -/
  | vsubb (o : NOp)
  /-- VMUL (R111). -/
  | vmul (o : NOp)
  /-- VMULH (R111). -/
  | vmulh (o : NOp)
  /-- VMAD (R111). -/
  | vmad (o : NOp)
  /-- VMADW (R111). -/
  | vmadw (o : NOp)
  /-- VDIV (R113). -/
  | vdiv (o : NOp)
  /-- VREM (R113). -/
  | vrem (o : NOp)
  /-- VMIN (R111). -/
  | vmin (o : NOp)
  /-- VMAX (R111). -/
  | vmax (o : NOp)
  /-- VABS (R111). -/
  | vabs (o : NOp)
  /-- VSAD (R111). -/
  | vsad (o : NOp)
  /-- VSAT (R111). -/
  | vsat (o : NOp)
  /-- VLEA (R111). -/
  | vlea (o : NOp)
  /-- VAND (R111). -/
  | vand (o : NOp)
  /-- VOR (R111). -/
  | vor (o : NOp)
  /-- VXOR (R111). -/
  | vxor (o : NOp)
  /-- VANDN (R111). -/
  | vandn (o : NOp)
  /-- VSHL (R114). -/
  | vshl (o : NOp)
  /-- VSHR (R114). -/
  | vshr (o : NOp)
  /-- VSAR (R114). -/
  | vsar (o : NOp)
  /-- VROT (R114). -/
  | vrot (o : NOp)
  /-- VFUNNEL (R114). -/
  | vfunnel (o : NOp)
  /-- VBFE (R115). -/
  | vbfe (o : NOp)
  /-- VBFI (R115). -/
  | vbfi (o : NOp)
  /-- VPOPC (R111). -/
  | vpopc (o : NOp)
  /-- VCLZ (R111). -/
  | vclz (o : NOp)
  /-- VCTZ (R111). -/
  | vctz (o : NOp)
  /-- VBREV (R111). -/
  | vbrev (o : NOp)
  /-- VPERMB (R116). -/
  | vpermb (o : NOp)
  /-- VCMP (R117). -/
  | vcmp (o : NOp)
  /-- VSEL (R117). -/
  | vsel (o : NOp)
  /-- VMOV (R111). -/
  | vmov (o : NOp)
  /-- VMOVI (R111). -/
  | vmovi (o : IOp)
  /-- VADDI (R111). -/
  | vaddi (o : IOp)
  /-- SADD (R118). -/
  | sadd (o : NOp)
  /-- SSUB (R118). -/
  | ssub (o : NOp)
  /-- SMUL (R118). -/
  | smul (o : NOp)
  /-- SMULH (R118). -/
  | smulh (o : NOp)
  /-- SMIN (R118). -/
  | smin (o : NOp)
  /-- SMAX (R118). -/
  | smax (o : NOp)
  /-- SAND (R118). -/
  | sand (o : NOp)
  /-- SOR (R118). -/
  | sor (o : NOp)
  /-- SXOR (R118). -/
  | sxor (o : NOp)
  /-- SANDN (R118). -/
  | sandn (o : NOp)
  /-- SSHL (R118). -/
  | sshl (o : NOp)
  /-- SSHR (R118). -/
  | sshr (o : NOp)
  /-- SSAR (R118). -/
  | ssar (o : NOp)
  /-- SCMP (R118). -/
  | scmp (o : NOp)
  /-- SSEL (R118). -/
  | ssel (o : NOp)
  /-- SMOV (R118). -/
  | smov (o : NOp)
  /-- SMOVI (R118). -/
  | smovi (o : IOp)
  /-- SADDI (R118). -/
  | saddi (o : IOp)
  /-- SPOPC (R118). -/
  | spopc (o : NOp)
  /-- SCLZ (R118). -/
  | sclz (o : NOp)
  /-- SCTZ (R118). -/
  | sctz (o : NOp)
  /-- SLANE (R119). -/
  | slane (o : NOp)
  /-- VPUT (R119). -/
  | vput (o : NOp)
  /-- VFADD (R125). -/
  | vfadd (o : NOp)
  /-- VFSUB (R125). -/
  | vfsub (o : NOp)
  /-- VFMUL (R125). -/
  | vfmul (o : NOp)
  /-- VFMA (R125). -/
  | vfma (o : NOp)
  /-- VFMIN (R127). -/
  | vfmin (o : NOp)
  /-- VFMAX (R127). -/
  | vfmax (o : NOp)
  /-- VFMINN (R127). -/
  | vfminn (o : NOp)
  /-- VFMAXN (R127). -/
  | vfmaxn (o : NOp)
  /-- VFDIV (R125). -/
  | vfdiv (o : NOp)
  /-- VFSQRT (R125). -/
  | vfsqrt (o : NOp)
  /-- VFRCP (R130). -/
  | vfrcp (o : NOp)
  /-- VFRSQ (R130). -/
  | vfrsq (o : NOp)
  /-- VFEXP2 (R130). -/
  | vfexp2 (o : NOp)
  /-- VFLOG2 (R130). -/
  | vflog2 (o : NOp)
  /-- VFSIN (R130). -/
  | vfsin (o : NOp)
  /-- VFCOS (R130). -/
  | vfcos (o : NOp)
  /-- VFCMP (R128). -/
  | vfcmp (o : NOp)
  /-- VFCLASS (R129). -/
  | vfclass (o : NOp)
  /-- VFRND (R126). -/
  | vfrnd (o : NOp)
  /-- VFLDEXP (R126). -/
  | vfldexp (o : NOp)
  /-- VFABS (R126). -/
  | vfabs (o : NOp)
  /-- VFNEG (R126). -/
  | vfneg (o : NOp)
  /-- VCVT (R131). -/
  | vcvt (o : NOp)
  /-- VPK8 (R133). -/
  | vpk8 (o : NOp)
  /-- VUPK8 (R134). -/
  | vupk8 (o : NOp)
  /-- VFDOT2 (R135). -/
  | vfdot2 (o : NOp)
  /-- VFDOT4 (R135). -/
  | vfdot4 (o : NOp)
  /-- VCMUL (R137). -/
  | vcmul (o : NOp)
  /-- VCFMA (R137). -/
  | vcfma (o : NOp)
  /-- VCCONJ (R137). -/
  | vcconj (o : NOp)
  /-- VCABS2 (R137). -/
  | vcabs2 (o : NOp)
  /-- VBFLY2 (R138). -/
  | vbfly2 (o : NOp)
  /-- VBFLY4 (R139). -/
  | vbfly4 (o : NOp)
  /-- VTWID (R140). -/
  | vtwid (o : NOp)
  /-- VSHFL (R143). -/
  | vshfl (o : NOp)
  /-- VBCAST (R143). -/
  | vbcast (o : NOp)
  /-- VREDUCE (R144). -/
  | vreduce (o : NOp)
  /-- VSCAN (R144). -/
  | vscan (o : NOp)
  /-- VBALLOT (R145). -/
  | vballot (o : NOp)
  /-- VMATCH (R145). -/
  | vmatch (o : NOp)
  /-- VVOTE (R145). -/
  | vvote (o : NOp)
  /-- MGROUP (R147). -/
  | mgroup (o : XOp)
  /-- MMA (R155). -/
  | mma (o : XOp)
  /-- ACCZ (R162). -/
  | accz (o : XOp)
  /-- ACCRD (R163). -/
  | accrd (o : XOp)
  /-- ACCWR (R163). -/
  | accwr (o : XOp)
  /-- ACCST (R164). -/
  | accst (o : XOp)
  /-- ACCLD (R164). -/
  | accld (o : XOp)
  /-- ACCFREE (R162). -/
  | accfree (o : XOp)
  /-- ACCOWN (R165). -/
  | accown (o : NOp)
  /-- ACCSPILL (R165). -/
  | accspill (o : XOp)
  /-- ACCFILL (R165). -/
  | accfill (o : XOp)
  /-- LDSPL (R178). -/
  | ldspl (o : LdOp)
  /-- STSPL (R178). -/
  | stspl (o : StOp)
  /-- LDGNG (R178). -/
  | ldgng (o : LdOp)
  /-- STGNG (R178). -/
  | stgng (o : StOp)
  /-- ATMGNG (R207). -/
  | atmgng (o : AOp)
  /-- LDSCR (R178). -/
  | ldscr (o : LdOp)
  /-- STSCR (R178). -/
  | stscr (o : StOp)
  /-- ATMSCR (R207). -/
  | atmscr (o : AOp)
  /-- REDSCR (R207). -/
  | redscr (o : AOp)
  /-- PSET (R187). -/
  | pset (o : LdOp)
  /-- PCLR (R187). -/
  | pclr (o : LdOp)
  /-- PQRY (R187). -/
  | pqry (o : LdOp)
  /-- LDDOM (R178). -/
  | lddom (o : LdOp)
  /-- STDOM (R178). -/
  | stdom (o : StOp)
  /-- ATMDOM (R207). -/
  | atmdom (o : AOp)
  /-- REDDOM (R207). -/
  | reddom (o : AOp)
  /-- LDHST (R178). -/
  | ldhst (o : LdOp)
  /-- STHST (R178). -/
  | sthst (o : StOp)
  /-- ATMHST (R212). -/
  | atmhst (o : AOp)
  /-- COPY (R193). -/
  | copy (o : XOp)
  /-- CSEAL (R203). -/
  | cseal (o : NOp)
  /-- CWAIT (R203). -/
  | cwait (o : NOp)
  /-- CPOLL (R203). -/
  | cpoll (o : NOp)
  /-- FENCE (R213). -/
  | fence (o : FenceOp)
  /-- GENBUMP (R214). -/
  | genbump (o : NOp)
  /-- COLL (R216). -/
  | coll (o : XOp)
  /-- MJOIN (R267). -/
  | mjoin (o : NOp)
  /-- MLEAVE (R267). -/
  | mleave (o : NOp)
  /-- MWAIT (R268). -/
  | mwait (o : NOp)
  /-- BARSYNC (R271). -/
  | barsync (o : NOp)
  /-- BARARV (R271). -/
  | bararv (o : NOp)
  /-- BARBYTES (R271). -/
  | barbytes (o : NOp)
  /-- BARQRY (R273). -/
  | barqry (o : NOp)
  /-- SEND (R311). -/
  | send (o : XOp)
  /-- SENDMEM (R312). -/
  | sendmem (o : XOp)
  /-- JWAIT (R313). -/
  | jwait (o : XOp)
  /-- TIMEPOST (R314). -/
  | timepost (o : XOp)
  /-- TIMEPOST_CANCEL (R314). -/
  | timepostCancel (o : XOp)
  /-- PORTQRY (R315). -/
  | portqry (o : NOp)
  /-- PATARM (R315). -/
  | patarm (o : NOp)
  /-- HEAPPUT (R326). -/
  | heapput (o : NOp)
  /-- HEAPPOP (R326). -/
  | heappop (w : Bool) (o : NOp)
  /-- HEAPDONE (R326). -/
  | heapdone (o : NOp)
  /-- GAINADD (R326). -/
  | gainadd (o : NOp)
  /-- HEAPSUM (R327). -/
  | heapsum (o : NOp)
  /-- HEAPDRAIN (R326). -/
  | heapdrain (o : NOp)
  /-- KWSEL (R82). -/
  | kwsel (o : NOp)
  /-- KWRET (R82). -/
  | kwret (o : NOp)
  /-- KWLOAD (R82). -/
  | kwload (o : XOp)
  /-- KWSWAP (R82). -/
  | kwswap (o : NOp)
  /-- KWINV (R82). -/
  | kwinv (o : NOp)
  /-- TLBINV (R407). -/
  | tlbinv (o : NOp)
  /-- WIPE (R410). -/
  | wipe (o : XOp)
  /-- PATTERN_FIRE (R304). -/
  | patternFire (sec : Nat)
  /-- GANG_ADMISSION (R278). -/
  | gangAdmission (part : Nat)
  /-- SUPERVISOR_PREEMPT (R282). -/
  | supervisorPreempt (gang : Nat)
  /-- SAVE_DRAIN_TIMEOUT (R352). -/
  | saveDrainTimeout (gang : Nat)
  /-- LOAD_REPLY (R31). -/
  | loadReply (warp reply : Nat) (lanes : Mask)
  /-- REJECT_RETRY (R190). -/
  | rejectRetry (cluster : Nat)
  /-- PARK_WAKE (R185). -/
  | parkWake (warp : Nat)
  /-- ISSUE_AGE_GUARD (R284). -/
  | issueAgeGuard (quad : Nat)
  /-- MEMPORT_ATOMIC (R207). -/
  | memportAtomic (op : Nat)
  /-- MEMPORT_REDUCTION (R210). -/
  | memportReduction (ops : List Nat)
  /-- FENCE_SATISFIED (R213). -/
  | fenceSatisfied (warp : Nat)
  /-- COPY_LINE_LAND (R198). -/
  | copyLineLand (copy line : Nat)
  /-- COPY_COMPLETE (R199). -/
  | copyComplete (copy : Nat)
  /-- COPY_FAIL (R198). -/
  | copyFail (copy : Nat) (internal : Bool)
  /-- COLL_COMPLETE (R217). -/
  | collComplete (coll : Nat) (peers : List PeerPart)
  /-- COLL_PEER_ABORT (R218). -/
  | collPeerAbort (coll : Nat)
  /-- MATRIX_QUEUE_EXECUTE (R157). -/
  | matrixQueueExecute (quad : Nat)
  /-- SENDMEM_COMPLETE (R312). -/
  | sendmemComplete (job : Nat)
  /-- HEAP_UNIT_APPLY (R326). -/
  | heapUnitApply (sec : Nat)
  /-- HEAP_POPPER_WAKE (R328). -/
  | heapPopperWake (ctx heap : Nat)
  /-- PORT_SWAP_IN (R295). -/
  | portSwapIn (ctx port : Nat)
  /-- PORT_SENDER_RETRY (R309). -/
  | portSenderRetry (ctx port : Nat)
  /-- TIMER_POST (R314). -/
  | timerPost (part handle : Nat)
  /-- SLEEP_DEADLINE (R263). -/
  | sleepDeadline (warp : Nat)
  /-- GANG_WATCHDOG_EXPIRY (R289). -/
  | gangWatchdogExpiry (gang : Nat)
  /-- PARTITION_WATCHDOG_EXPIRY (R290). -/
  | partitionWatchdogExpiry (part : Nat)
  /-- PARTITION_WATCHDOG_RESTART (R290). -/
  | partitionWatchdogRestart (part : Nat)
  /-- CODE_PAGE_VERIFIED (R78). -/
  | codePageVerified (ctx page : Nat)
  /-- PAGE_MIGRATION (R192). -/
  | pageMigration (part page sec : Nat)
  /-- HOST_COMPLETION_TIMEOUT (R174). -/
  | hostCompletionTimeout (warp reply : Nat)
  /-- HOST_STORE_FAIL (R174). -/
  | hostStoreFail (store : Nat)
  /-- HOST_PORT_WRITE (R243). -/
  | hostPortWrite (fn offset : Nat) (bytes : List Byte)
  /-- HOST_APERTURE_WRITE (R249). -/
  | hostApertureWrite (fn offset : Nat) (bytes : List Byte)
  /-- HOST_APERTURE_READ (R249). -/
  | hostApertureRead (fn offset len : Nat)
  /-- HOST_ATOMICOP (R241). -/
  | hostAtomicop (fn offset : Nat)
  /-- FUNCTION_LEVEL_RESET (R242). -/
  | functionLevelReset (fn : Nat)
  /-- CTXGO (R393). -/
  | ctxgo (fn : Nat) (install : Install)
  /-- REGISTER_WRITE (R11). -/
  | registerWrite (reg : DevReg) (val : DWord)
  /-- PTM_RESPONSE (R250). -/
  | ptmResponse (time : Nat)
  /-- PPS_INPUT (R380). -/
  | ppsInput (ago : Nat)
  /-- TIME_SOURCE_LOSS (R380). -/
  | timeSourceLoss
  /-- FLIT_CRC_FAIL (R251). -/
  | flitCrcFail (link : Nat)
  /-- RANK_UNREACHABLE (R255). -/
  | rankUnreachable (rank : Nat)
  /-- ENSEMBLE_REGISTER (R252). -/
  | ensembleRegister (members : List EnsMember)
  /-- ENSEMBLE_DEREGISTER (R252). -/
  | ensembleDeregister (ens rank : Nat)
  /-- UNCORRECTABLE_ERROR (R354). -/
  | uncorrectableError (site : ErrSite) (corrected : Bool)
  /-- KILL_REQUEST (R357). -/
  | killRequest (ctx : Nat)
  /-- DRIVER_KILL_REQUEST (R357). -/
  | driverKillRequest (ctx : Nat)
  /-- ALLOC_SCR (R400). -/
  | allocScr (part : Nat)
  /-- ALLOC_HBM (R400). -/
  | allocHbm (part : Nat)
  /-- FREE (R400). -/
  | free (part : Nat)
  /-- PLACE (R399). -/
  | place (part : Nat)
  /-- MBOXEN (R426). -/
  | mboxen (part : Nat)
  /-- POWER_GOOD (R378). -/
  | powerGood (image : BootInput)
  /-- POWER_WINDOW (R382). -/
  | powerWindow (part power : Nat)
  /-- INPUT_FAULT (R383). -/
  | inputFault
  /-- POWER_OFF (R383). -/
  | powerOff
  /-- RESET (R359). -/
  | reset (part : Nat)
  /-- DUMP (R385). -/
  | dump (part : Nat) (opts : DumpOpts)
  /-- DUMP_TIMEOUT (R385). -/
  | dumpTimeout (part : Nat)
  /-- CAP (R382). -/
  | cap (watts : Nat) (shares : List Nat)
  /-- TIME (R380). -/
  | time (ptmOnly : Bool)
  /-- COUNTERS (R384). -/
  | counters (part : Nat)
  /-- FIRMWARE (R384). -/
  | firmware (bank : Bool) (image : List Byte)
  /-- ATTEST (R417). -/
  | attest
  /-- GET_VERSION (R417). -/
  | getVersion
  /-- GET_CAPABILITIES (R417). -/
  | getCapabilities
  /-- NEGOTIATE_ALGORITHMS (R417). -/
  | negotiateAlgorithms (supported : Bool)
  /-- GET_DIGESTS (R417). -/
  | getDigests
  /-- GET_CERTIFICATE (R417). -/
  | getCertificate
  /-- CHALLENGE (R417). -/
  | challenge (nonce : BitVec 256)
  /-- GET_MEASUREMENTS (R417). -/
  | getMeasurements (index : Nat)
  /-- LIFECYCLE_TRANSITION (R415). -/
  | lifecycleTransition (target : LifeCycle) (request : SignedRequest)
  /-- CODE_KEY_ENROL (R413). -/
  | codeKeyEnrol (part index : Nat) (key : CodeKey) (request : SignedRequest)
  /-- DEBUG_RIGHT_GRANT (R360). -/
  | debugRightGrant (ctx session : Nat)
  /-- DEBUG_RIGHT_END (R371). -/
  | debugRightEnd (ctx : Nat)
  /-- HALT (R364). -/
  | halt (gang : Nat)
  /-- STEP (R369). -/
  | step (warp : Nat)
  /-- RESUME (R370). -/
  | resume (gang : Nat)
  /-- STOPAT (R375). -/
  | stopat (gang interval count : Nat)
  /-- DEBUGGER_EDIT (R368). -/
  | debuggerEdit (target : EditTarget)
  /-- WATCHPOINT_WRITE (R362). -/
  | watchpointWrite (ctx index : Nat) (addr : DWord) (ctl : Word)
  /-- BREAKPOINT_WRITE (R362). -/
  | breakpointWrite (ctx index : Nat) (addr : Word) (slot : Nat) (enabled : Bool)
  /-- STOP_RECORD_READ (R367). -/
  | stopRecordRead (warp : Nat)
  /-- REPLAY_CHECKPOINT (R374). -/
  | replayCheckpoint (gang : Nat)
  /-- LANE_CYCLE_READ (R377). -/
  | laneCycleRead (ctx : Nat)
  /-- LANE_CYCLE_CLEAR (R377). -/
  | laneCycleClear (ctx : Nat)
  /-- DOMAIN_ACKNOWLEDGEMENT (R211). -/
  | domainAcknowledgement (ack : Nat)
  /-- LINK_RETRAIN_DONE (R251). -/
  | linkRetrainDone (link : Nat)
  /-- INPUT_BACK_IN_RANGE (R383). -/
  | inputBackInRange
  /-- KEYWAY_STATUS_WRITE (R82). -/
  | keywayStatusWrite (job : Nat)
  /-- WIPE_COMPLETION (R410). -/
  | wipeCompletion (job : Nat)
  /-- TLBINV_STATUS_WRITE (R407). -/
  | tlbinvStatusWrite (job : Nat)
  /-- PPS_OUTPUT (R380). -/
  | ppsOutput
  /-- DUMP_STREAM_END (R385). -/
  | dumpStreamEnd (part : Nat)
  /-- GANG_KILL (R358). -/
  | gangKill (gang : Nat) (launch : Bool)
  /-- RECORD_CONSUME (R348). -/
  | recordConsume (ctx count : Nat) (debug : Bool)
  deriving DecidableEq, Repr

end Sys2Proof
end

