-- ==== Sys2Proof/Machine/OpTable.lean ====
section
/-! DEFINITION. The encoding tables of the instructions as data (R52, R81, R110, R118, R124, R131 to R136, R141, R148, R165,
R176, R194, R202 to R206, R213 to R215, R258, R267, R270, R308, R324, R406, R408): for each opcode the operand rules, and the
checks 3 and 4 of R54 over them. -/
set_option autoImplicit false

namespace Sys2Proof

/-! ### Types and formats -/

/-- Bits of one element (R85, R87, R91). -/
def Ty.bits : Ty → Nat
  | .i32 | .n32 | .f32 | .cf16 => 32
  | .i64 | .n64 | .f64 | .cf32 => 64
  | .i16x2 | .n16x2 | .f16x2 | .bf16x2 => 16
  | .i8x4 | .n8x4 => 8

/-- Does a value of the type occupy a register pair (R46)? -/
def Ty.is64 (t : Ty) : Bool := t.bits == 64

/-- Elements in one register or pair (R85). -/
def Ty.elems : Ty → Nat
  | .i16x2 | .n16x2 | .f16x2 | .bf16x2 => 2
  | .i8x4 | .n8x4 => 4
  | _ => 1

/-- The integer types, codes 0 to 7 (R49). -/
def Ty.isInt : Ty → Bool
  | .i32 | .n32 | .i64 | .n64 | .i16x2 | .n16x2 | .i8x4 | .n8x4 => true
  | _ => false

/-- The i types, read signed (R106). -/
def Ty.signed : Ty → Bool
  | .i32 | .i64 | .i16x2 | .i8x4 => true
  | _ => false

/-- The complex types (R91). -/
def Ty.isComplex : Ty → Bool
  | .cf16 | .cf32 => true
  | _ => false

/-- The type codes of MOD.TYPE (R49). -/
def Ty.code : Ty → Nat
  | .i32 => 0 | .n32 => 1 | .i64 => 2 | .n64 => 3 | .i16x2 => 4 | .n16x2 => 5 | .i8x4 => 6 | .n8x4 => 7
  | .f32 => 8 | .f64 => 9 | .f16x2 => 10 | .bf16x2 => 11 | .cf16 => 12 | .cf32 => 13

/-- The type of a code; E and F are reserved (R49). -/
def Ty.ofCode : Nat → Option Ty
  | 0 => some .i32 | 1 => some .n32 | 2 => some .i64 | 3 => some .n64 | 4 => some .i16x2 | 5 => some .n16x2
  | 6 => some .i8x4 | 7 => some .n8x4 | 8 => some .f32 | 9 => some .f64 | 10 => some .f16x2 | 11 => some .bf16x2
  | 12 => some .cf16 | 13 => some .cf32 | _ => none

/-- Is the six-bit format code a binary8 one (R49)? -/
def fmtIsB8 (c : BitVec 6) : Bool :=
  let n := c.toNat
  (0x10 ≤ n && n ≤ 0x16) || (0x18 ≤ n && n ≤ 0x1E) || (0x20 ≤ n && n ≤ 0x26) || (0x28 ≤ n && n ≤ 0x2E)

/-- Is the six-bit format code assigned (R49)? -/
def fmtValid (c : BitVec 6) : Bool := c.toNat ≤ 0x0E || fmtIsB8 c

/-- Bits of one element of the format (R85, R87, R91, R92). -/
def fmtBits (c : BitVec 6) : Nat :=
  match c.toNat with
  | 0x00 | 0x04 | 0x05 | 0x0C | 0x0E => 32
  | 0x01 | 0x0A | 0x0B | 0x0D => 64
  | 0x02 | 0x03 | 0x06 | 0x07 => 16
  | _ => 8

/-- The complex formats (R91). -/
def fmtIsComplex (c : BitVec 6) : Bool := c == 0x0C#6 || c == 0x0D#6

/-- The integer formats (R49). -/
def fmtIsInt (c : BitVec 6) : Bool := (4 ≤ c.toNat && c.toNat ≤ 0x0B)

/-! ### Rules of the operand tables -/

/-- The accepted type codes of an instruction; `modZero` is an instruction whose MOD must be zero. -/
inductive TySet
  | modZero | ints | wide | w32 | signed | sad | flts | flts32 | halves | dot4 | cplx | any14 | red | wbit
  deriving DecidableEq, Repr

def TySet.has : TySet → Ty → Bool
  | .modZero, t => t == .i32
  | .ints, t => t.isInt
  | .wide, t => t == .i32 || t == .n32 || t == .i64 || t == .n64
  | .w32, t => t == .i32 || t == .n32
  | .signed, t => t == .i32 || t == .i64 || t == .i16x2 || t == .i8x4
  | .sad, t => t.isInt && !t.is64
  | .flts, t => t == .f32 || t == .f64 || t == .f16x2 || t == .bf16x2
  | .flts32, t => t == .f32 || t == .f16x2 || t == .bf16x2
  | .halves, t => t == .f16x2 || t == .bf16x2
  | .dot4, t => t == .f32 || t == .i32 || t == .n32
  | .cplx, t => t.isComplex
  | .any14, _ => true
  | .red, t => t == .i32 || t == .n32 || t == .i64 || t == .n64 || t == .f32 || t == .f64 || t == .f16x2 || t == .bf16x2
  | .wbit, t => t == .i32 || t == .n32

/-- The accepted MOD.RND values: 00 only, any, RNE or RTZ, any under a floating type only. -/
inductive RndRule
  | none | any | rneRtz | floatOnly
  deriving DecidableEq, Repr

def RndRule.ok : RndRule → Ty → Rnd → Bool
  | .none, _, r => r == .rne
  | .any, _, _ => true
  | .rneRtz, _, r => r == .rne || r == .rtz
  | .floatOnly, t, r => r == .rne || !t.isInt

/-- The rule of one source field. -/
inductive SRule
  | zero | vty | v32 | f32 | v64 | sty | s32 | scl | sclTy | sclNoLit | mask | scal | lit (max : Nat) | scale | ctl | ctlK
  | vecOnly | vreg | vgrp4 | vgrp3 | pairSC | link | brTgt | kwret | addr32 | addr64 | aty | blk (n : Nat) | cvt
  deriving DecidableEq, Repr

/-- The rule of the destination field. -/
inductive DRule
  | none | vty | v32 | v64 | vgrp (n : Nat) | sty | s32 | s64 | s8 | mask | mask0 | cvt | srd | accrd
  deriving DecidableEq, Repr

/-- Where an operation may stand in its step (R24, R108, R122, R258): register-only and never faulting; register-only but
able to fault or park; the side-effecting operation; a branch, last; last and able to fault. -/
inductive Pos
  | regOnly | mayFault | side | branch | lastFaults
  deriving DecidableEq, Repr

/-- One row of the format N tables. -/
structure NInfo where
  op : Nat
  tys : TySet
  rnd : RndRule
  s0 : SRule
  s1 : SRule
  s2 : SRule
  d : DRule
  guard : Bool
  pos : Pos
  sup : Bool
  deriving DecidableEq, Repr

/-- One row of the format I table. -/
structure IInfo where
  op : Nat
  s0 : SRule
  d : DRule
  pos : Pos
  deriving DecidableEq, Repr

/-- One row of the format B table: does it use TGT, does it accept a guard. -/
structure BInfo where
  op : Nat
  s0 : SRule
  tgt : Bool
  guard : Bool
  pos : Pos
  deriving DecidableEq, Repr

/-- The spaces of R167 that loads, stores and atomics address. -/
inductive Space
  | spill | gang | scr | dom | host
  deriving DecidableEq, Repr

/-- One row of the load, presence or store tables (R167, R176). -/
structure MInfo where
  op : Nat
  space : Space
  ords : List Order
  np : Bool
  presence : Bool
  d : DRule
  pos : Pos
  deriving DecidableEq, Repr

/-- One row of the atomic table (R204); `reply` is an atomic, its absence a reduction. -/
structure AInfo where
  op : Nat
  space : Space
  reply : Bool
  deriving DecidableEq, Repr

/-- One row of the format X tables: the size of the parameter block, 0 when S0 is unused. -/
structure XInfo where
  op : Nat
  blk : Nat
  d : DRule
  pos : Pos
  sup : Bool
  deriving DecidableEq, Repr

/-- An instruction as its format's row and record; `event` is a step that is no instruction word. -/
inductive Enc
  | n (f : NInfo) (o : NOp)
  | i (f : IInfo) (o : IOp)
  | b (f : BInfo) (o : BOp)
  | ld (f : MInfo) (o : LdOp)
  | st (f : MInfo) (o : StOp)
  | fence (op : Nat) (o : FenceOp)
  | a (f : AInfo) (o : AOp)
  | x (f : XInfo) (o : XOp)
  | event
  deriving DecidableEq, Repr

/-- The row and record of each instruction. -/
def Instr.enc : Instr → Enc
  | .nop o => .n ⟨0x000, .modZero, .none, .zero, .zero, .zero, .none, false, .regOnly, false⟩ o
  | .bra o => .b ⟨0x001, .zero, true, true, .branch⟩ o
  | .bri o => .b ⟨0x002, .brTgt, false, true, .branch⟩ o
  | .call o => .b ⟨0x003, .link, true, true, .branch⟩ o
  | .ret o => .b ⟨0x004, .brTgt, false, true, .branch⟩ o
  | .exit o => .b ⟨0x005, .zero, false, true, .branch⟩ o
  | .elect o => .n ⟨0x006, .modZero, .none, .zero, .zero, .zero, .mask, true, .regOnly, false⟩ o
  | .loop o => .b ⟨0x007, .scal, true, false, .lastFaults⟩ o
  | .lend o => .b ⟨0x008, .scal, true, false, .branch⟩ o
  | .yield o => .n ⟨0x009, .modZero, .none, .zero, .zero, .zero, .none, false, .regOnly, false⟩ o
  | .sleep o => .n ⟨0x00A, .modZero, .none, .pairSC, .zero, .zero, .none, false, .lastFaults, false⟩ o
  | .trap o => .i ⟨0x00B, .zero, .none, .lastFaults⟩ o
  | .tret o => .n ⟨0x00C, .modZero, .none, .zero, .zero, .zero, .none, false, .lastFaults, false⟩ o
  | .signal o => .n ⟨0x00D, .modZero, .none, .scl, .scl, .zero, .none, true, .side, false⟩ o
  | .rdsr o => .i ⟨0x00E, .zero, .srd, .regOnly⟩ o
  | .wrsr o => .i ⟨0x00F, .s32, .none, .regOnly⟩ o
  | .bkpt o => .i ⟨0x010, .zero, .none, .lastFaults⟩ o
  | .vadd o => .n ⟨0x040, .ints, .none, .vty, .vty, .zero, .vty, true, .regOnly, false⟩ o
  | .vsub o => .n ⟨0x041, .ints, .none, .vty, .vty, .zero, .vty, true, .regOnly, false⟩ o
  | .vaddc o => .n ⟨0x042, .wide, .none, .vty, .vty, .mask, .vty, true, .regOnly, false⟩ o
  | .vsubb o => .n ⟨0x043, .wide, .none, .vty, .vty, .mask, .vty, true, .regOnly, false⟩ o
  | .vmul o => .n ⟨0x044, .ints, .none, .vty, .vty, .zero, .vty, true, .regOnly, false⟩ o
  | .vmulh o => .n ⟨0x045, .ints, .none, .vty, .vty, .zero, .vty, true, .regOnly, false⟩ o
  | .vmad o => .n ⟨0x046, .ints, .none, .vty, .vty, .vty, .vty, true, .regOnly, false⟩ o
  | .vmadw o => .n ⟨0x047, .w32, .none, .vty, .vty, .v64, .v64, true, .regOnly, false⟩ o
  | .vdiv o => .n ⟨0x048, .ints, .none, .vty, .vty, .zero, .vty, true, .mayFault, false⟩ o
  | .vrem o => .n ⟨0x049, .ints, .none, .vty, .vty, .zero, .vty, true, .mayFault, false⟩ o
  | .vmin o => .n ⟨0x04A, .ints, .none, .vty, .vty, .zero, .vty, true, .regOnly, false⟩ o
  | .vmax o => .n ⟨0x04B, .ints, .none, .vty, .vty, .zero, .vty, true, .regOnly, false⟩ o
  | .vabs o => .n ⟨0x04C, .signed, .none, .vty, .zero, .zero, .vty, true, .regOnly, false⟩ o
  | .vsad o => .n ⟨0x04D, .sad, .none, .vty, .vty, .v32, .v32, true, .regOnly, false⟩ o
  | .vsat o => .n ⟨0x04E, .ints, .none, .vty, .vty, .lit 1, .vty, true, .mayFault, false⟩ o
  | .vlea o => .n ⟨0x04F, .wide, .none, .vty, .vty, .scale, .vty, true, .regOnly, false⟩ o
  | .vand o => .n ⟨0x050, .ints, .none, .vty, .vty, .zero, .vty, true, .regOnly, false⟩ o
  | .vor o => .n ⟨0x051, .ints, .none, .vty, .vty, .zero, .vty, true, .regOnly, false⟩ o
  | .vxor o => .n ⟨0x052, .ints, .none, .vty, .vty, .zero, .vty, true, .regOnly, false⟩ o
  | .vandn o => .n ⟨0x053, .ints, .none, .vty, .vty, .zero, .vty, true, .regOnly, false⟩ o
  | .vshl o => .n ⟨0x054, .ints, .none, .vty, .vty, .zero, .vty, true, .regOnly, false⟩ o
  | .vshr o => .n ⟨0x055, .ints, .none, .vty, .vty, .zero, .vty, true, .regOnly, false⟩ o
  | .vsar o => .n ⟨0x056, .ints, .none, .vty, .vty, .zero, .vty, true, .regOnly, false⟩ o
  | .vrot o => .n ⟨0x057, .ints, .none, .vty, .vty, .zero, .vty, true, .regOnly, false⟩ o
  | .vfunnel o => .n ⟨0x058, .w32, .none, .vty, .vty, .vty, .vty, true, .regOnly, false⟩ o
  | .vbfe o => .n ⟨0x059, .w32, .none, .vty, .vty, .zero, .vty, true, .regOnly, false⟩ o
  | .vbfi o => .n ⟨0x05A, .w32, .none, .vty, .vty, .vty, .vty, true, .regOnly, false⟩ o
  | .vpopc o => .n ⟨0x05B, .ints, .none, .vty, .zero, .zero, .vty, true, .regOnly, false⟩ o
  | .vclz o => .n ⟨0x05C, .ints, .none, .vty, .zero, .zero, .vty, true, .regOnly, false⟩ o
  | .vctz o => .n ⟨0x05D, .ints, .none, .vty, .zero, .zero, .vty, true, .regOnly, false⟩ o
  | .vbrev o => .n ⟨0x05E, .ints, .none, .vty, .zero, .zero, .vty, true, .regOnly, false⟩ o
  | .vpermb o => .n ⟨0x05F, .w32, .none, .vty, .vty, .vty, .vty, true, .regOnly, false⟩ o
  | .vcmp o => .n ⟨0x060, .wide, .none, .vty, .vty, .lit 7, .mask, true, .regOnly, false⟩ o
  | .vsel o => .n ⟨0x061, .ints, .none, .vty, .vty, .scal, .vty, true, .regOnly, false⟩ o
  | .vmov o => .n ⟨0x062, .ints, .none, .vty, .zero, .zero, .vty, true, .regOnly, false⟩ o
  | .vmovi o => .i ⟨0x063, .zero, .v32, .regOnly⟩ o
  | .vaddi o => .i ⟨0x064, .v32, .v32, .regOnly⟩ o
  | .sadd o => .n ⟨0x0C0, .ints, .none, .sty, .sty, .zero, .sty, true, .regOnly, false⟩ o
  | .ssub o => .n ⟨0x0C1, .ints, .none, .sty, .sty, .zero, .sty, true, .regOnly, false⟩ o
  | .smul o => .n ⟨0x0C2, .ints, .none, .sty, .sty, .zero, .sty, true, .regOnly, false⟩ o
  | .smulh o => .n ⟨0x0C3, .ints, .none, .sty, .sty, .zero, .sty, true, .regOnly, false⟩ o
  | .smin o => .n ⟨0x0C4, .ints, .none, .sty, .sty, .zero, .sty, true, .regOnly, false⟩ o
  | .smax o => .n ⟨0x0C5, .ints, .none, .sty, .sty, .zero, .sty, true, .regOnly, false⟩ o
  | .sand o => .n ⟨0x0C6, .ints, .none, .sty, .sty, .zero, .sty, true, .regOnly, false⟩ o
  | .sor o => .n ⟨0x0C7, .ints, .none, .sty, .sty, .zero, .sty, true, .regOnly, false⟩ o
  | .sxor o => .n ⟨0x0C8, .ints, .none, .sty, .sty, .zero, .sty, true, .regOnly, false⟩ o
  | .sandn o => .n ⟨0x0C9, .ints, .none, .sty, .sty, .zero, .sty, true, .regOnly, false⟩ o
  | .sshl o => .n ⟨0x0CA, .ints, .none, .sty, .sty, .zero, .sty, true, .regOnly, false⟩ o
  | .sshr o => .n ⟨0x0CB, .ints, .none, .sty, .sty, .zero, .sty, true, .regOnly, false⟩ o
  | .ssar o => .n ⟨0x0CC, .ints, .none, .sty, .sty, .zero, .sty, true, .regOnly, false⟩ o
  | .scmp o => .n ⟨0x0CD, .wide, .none, .sty, .sty, .lit 7, .sty, true, .regOnly, false⟩ o
  | .ssel o => .n ⟨0x0CE, .ints, .none, .sty, .sty, .s32, .sty, true, .regOnly, false⟩ o
  | .smov o => .n ⟨0x0CF, .ints, .none, .sty, .zero, .zero, .sty, true, .regOnly, false⟩ o
  | .smovi o => .i ⟨0x0D0, .zero, .s32, .regOnly⟩ o
  | .saddi o => .i ⟨0x0D1, .s32, .s32, .regOnly⟩ o
  | .spopc o => .n ⟨0x0D2, .ints, .none, .sty, .zero, .zero, .sty, true, .regOnly, false⟩ o
  | .sclz o => .n ⟨0x0D3, .ints, .none, .sty, .zero, .zero, .sty, true, .regOnly, false⟩ o
  | .sctz o => .n ⟨0x0D4, .ints, .none, .sty, .zero, .zero, .sty, true, .regOnly, false⟩ o
  | .slane o => .n ⟨0x0D5, .ints, .none, .vecOnly, .sclTy, .zero, .sty, true, .regOnly, false⟩ o
  | .vput o => .n ⟨0x0D6, .ints, .none, .sty, .sclTy, .zero, .vty, true, .regOnly, false⟩ o
  | .vfadd o => .n ⟨0x100, .flts, .any, .vty, .vty, .zero, .vty, true, .mayFault, false⟩ o
  | .vfsub o => .n ⟨0x101, .flts, .any, .vty, .vty, .zero, .vty, true, .mayFault, false⟩ o
  | .vfmul o => .n ⟨0x102, .flts, .any, .vty, .vty, .zero, .vty, true, .mayFault, false⟩ o
  | .vfma o => .n ⟨0x103, .flts, .any, .vty, .vty, .vty, .vty, true, .mayFault, false⟩ o
  | .vfmin o => .n ⟨0x104, .flts, .none, .vty, .vty, .zero, .vty, true, .mayFault, false⟩ o
  | .vfmax o => .n ⟨0x105, .flts, .none, .vty, .vty, .zero, .vty, true, .mayFault, false⟩ o
  | .vfminn o => .n ⟨0x106, .flts, .none, .vty, .vty, .zero, .vty, true, .mayFault, false⟩ o
  | .vfmaxn o => .n ⟨0x107, .flts, .none, .vty, .vty, .zero, .vty, true, .mayFault, false⟩ o
  | .vfdiv o => .n ⟨0x108, .flts, .any, .vty, .vty, .zero, .vty, true, .mayFault, false⟩ o
  | .vfsqrt o => .n ⟨0x109, .flts, .any, .vty, .zero, .zero, .vty, true, .mayFault, false⟩ o
  | .vfrcp o => .n ⟨0x10A, .flts32, .none, .vty, .zero, .zero, .vty, true, .mayFault, false⟩ o
  | .vfrsq o => .n ⟨0x10B, .flts32, .none, .vty, .zero, .zero, .vty, true, .mayFault, false⟩ o
  | .vfexp2 o => .n ⟨0x10C, .flts32, .none, .vty, .zero, .zero, .vty, true, .mayFault, false⟩ o
  | .vflog2 o => .n ⟨0x10D, .flts32, .none, .vty, .zero, .zero, .vty, true, .mayFault, false⟩ o
  | .vfsin o => .n ⟨0x10E, .flts32, .none, .vty, .zero, .zero, .vty, true, .mayFault, false⟩ o
  | .vfcos o => .n ⟨0x10F, .flts32, .none, .vty, .zero, .zero, .vty, true, .mayFault, false⟩ o
  | .vfcmp o => .n ⟨0x110, .flts, .none, .vty, .vty, .lit 7, .mask, true, .mayFault, false⟩ o
  | .vfclass o => .n ⟨0x111, .flts, .none, .vty, .zero, .zero, .v32, true, .regOnly, false⟩ o
  | .vfrnd o => .n ⟨0x112, .flts, .any, .vty, .zero, .zero, .vty, true, .mayFault, false⟩ o
  | .vfldexp o => .n ⟨0x113, .flts, .any, .vty, .v32, .zero, .vty, true, .mayFault, false⟩ o
  | .vfabs o => .n ⟨0x114, .flts, .none, .vty, .zero, .zero, .vty, true, .regOnly, false⟩ o
  | .vfneg o => .n ⟨0x115, .flts, .none, .vty, .zero, .zero, .vty, true, .regOnly, false⟩ o
  | .vcvt o => .n ⟨0x120, .modZero, .any, .cvt, .ctl, .ctl, .cvt, true, .mayFault, false⟩ o
  | .vpk8 o => .n ⟨0x121, .flts32, .rneRtz, .vty, .v32, .scl, .v32, true, .mayFault, false⟩ o
  | .vupk8 o => .n ⟨0x122, .flts32, .any, .vty, .v32, .scl, .v32, true, .mayFault, false⟩ o
  | .vfdot2 o => .n ⟨0x123, .halves, .any, .vty, .vty, .f32, .v32, true, .mayFault, false⟩ o
  | .vfdot4 o => .n ⟨0x124, .dot4, .floatOnly, .vty, .vty, .ctlK, .v32, true, .mayFault, false⟩ o
  | .vcmul o => .n ⟨0x180, .cplx, .any, .vty, .vty, .zero, .vty, true, .mayFault, false⟩ o
  | .vcfma o => .n ⟨0x181, .cplx, .any, .vty, .vty, .vty, .vty, true, .mayFault, false⟩ o
  | .vcconj o => .n ⟨0x182, .cplx, .none, .vty, .zero, .zero, .vty, true, .regOnly, false⟩ o
  | .vcabs2 o => .n ⟨0x183, .cplx, .any, .vty, .zero, .zero, .vty, true, .mayFault, false⟩ o
  | .vbfly2 o => .n ⟨0x184, .cplx, .any, .vreg, .vreg, .vty, .vgrp 2, true, .mayFault, false⟩ o
  | .vbfly4 o => .n ⟨0x185, .cplx, .any, .vgrp4, .vgrp3, .lit 1, .vgrp 4, true, .mayFault, false⟩ o
  | .vtwid o => .n ⟨0x186, .cplx, .any, .v32, .v32, .zero, .vty, true, .mayFault, false⟩ o
  | .vshfl o => .n ⟨0x190, .any14, .none, .vty, .vty, .ctlK, .vty, true, .regOnly, false⟩ o
  | .vbcast o => .n ⟨0x191, .any14, .none, .vty, .ctlK, .sclTy, .vty, true, .regOnly, false⟩ o
  | .vreduce o => .n ⟨0x192, .red, .floatOnly, .vty, .zero, .ctlK, .vty, true, .regOnly, false⟩ o
  | .vscan o => .n ⟨0x193, .red, .floatOnly, .vty, .zero, .ctlK, .vty, true, .regOnly, false⟩ o
  | .vballot o => .n ⟨0x194, .w32, .none, .vty, .zero, .ctlK, .v32, true, .regOnly, false⟩ o
  | .vmatch o => .n ⟨0x195, .any14, .none, .vty, .zero, .ctlK, .v32, true, .regOnly, false⟩ o
  | .vvote o => .n ⟨0x196, .w32, .none, .vty, .zero, .ctlK, .v32, true, .regOnly, false⟩ o
  | .mgroup o => .x ⟨0x1C0, 0, .none, .mayFault, false⟩ o
  | .mma o => .x ⟨0x1C1, 5, .none, .side, false⟩ o
  | .accz o => .x ⟨0x1C2, 0, .none, .side, false⟩ o
  | .accrd o => .x ⟨0x1C3, 0, .accrd, .mayFault, false⟩ o
  | .accwr o => .x ⟨0x1C4, 0, .none, .side, false⟩ o
  | .accst o => .x ⟨0x1C5, 2, .none, .side, false⟩ o
  | .accld o => .x ⟨0x1C6, 2, .none, .side, false⟩ o
  | .accfree o => .x ⟨0x1C7, 0, .none, .side, false⟩ o
  | .accown o => .n ⟨0x308, .modZero, .none, .scl, .scl, .zero, .s64, false, .side, true⟩ o
  | .accspill o => .x ⟨0x309, 3, .s32, .side, true⟩ o
  | .accfill o => .x ⟨0x30A, 3, .s32, .side, true⟩ o
  | .ldspl o => .ld ⟨0x200, .spill, [.rlx], false, false, .v32, .mayFault⟩ o
  | .stspl o => .st ⟨0x201, .spill, [.rlx], false, false, .none, .side⟩ o
  | .ldgng o => .ld ⟨0x204, .gang, [.rlx, .acq], false, false, .v32, .mayFault⟩ o
  | .stgng o => .st ⟨0x205, .gang, [.rlx, .rel], false, false, .none, .side⟩ o
  | .atmgng o => .a ⟨0x206, .gang, true⟩ o
  | .ldscr o => .ld ⟨0x208, .scr, [.rlx, .acq], true, false, .v32, .mayFault⟩ o
  | .stscr o => .st ⟨0x209, .scr, [.rlx, .rel], false, false, .none, .side⟩ o
  | .atmscr o => .a ⟨0x20A, .scr, true⟩ o
  | .redscr o => .a ⟨0x20B, .scr, false⟩ o
  | .pset o => .ld ⟨0x20C, .scr, [.rlx, .rel], false, true, .none, .side⟩ o
  | .pclr o => .ld ⟨0x20D, .scr, [.rlx, .rel], false, true, .none, .side⟩ o
  | .pqry o => .ld ⟨0x20E, .scr, [.rlx, .acq], false, true, .v32, .mayFault⟩ o
  | .lddom o => .ld ⟨0x210, .dom, [.rlx, .acq], true, false, .v32, .mayFault⟩ o
  | .stdom o => .st ⟨0x211, .dom, [.rlx, .rel], false, false, .none, .side⟩ o
  | .atmdom o => .a ⟨0x212, .dom, true⟩ o
  | .reddom o => .a ⟨0x213, .dom, false⟩ o
  | .ldhst o => .ld ⟨0x218, .host, [.rlx, .acq], false, false, .v32, .mayFault⟩ o
  | .sthst o => .st ⟨0x219, .host, [.rlx, .rel], false, false, .none, .side⟩ o
  | .atmhst o => .a ⟨0x21A, .host, true⟩ o
  | .copy o => .x ⟨0x220, 10, .s64, .side, false⟩ o
  | .cseal o => .n ⟨0x280, .modZero, .none, .scl, .zero, .zero, .none, false, .regOnly, false⟩ o
  | .cwait o => .n ⟨0x281, .modZero, .none, .scl, .zero, .zero, .s32, false, .mayFault, false⟩ o
  | .cpoll o => .n ⟨0x282, .modZero, .none, .scl, .zero, .zero, .s32, false, .regOnly, false⟩ o
  | .fence o => .fence 0x283 o
  | .genbump o => .n ⟨0x284, .modZero, .none, .zero, .zero, .zero, .none, false, .regOnly, false⟩ o
  | .coll o => .x ⟨0x285, 6, .s64, .side, false⟩ o
  | .mjoin o => .n ⟨0x2C0, .modZero, .none, .zero, .zero, .zero, .mask0, true, .regOnly, false⟩ o
  | .mleave o => .n ⟨0x2C1, .modZero, .none, .zero, .zero, .zero, .mask0, true, .regOnly, false⟩ o
  | .mwait o => .n ⟨0x2C2, .modZero, .none, .mask, .zero, .zero, .none, true, .lastFaults, false⟩ o
  | .barsync o => .n ⟨0x2C4, .modZero, .none, .scl, .scl, .zero, .none, true, .side, false⟩ o
  | .bararv o => .n ⟨0x2C5, .modZero, .none, .scl, .scl, .zero, .none, true, .side, false⟩ o
  | .barbytes o => .n ⟨0x2C6, .modZero, .none, .scl, .scl, .zero, .none, true, .side, false⟩ o
  | .barqry o => .n ⟨0x2C7, .modZero, .none, .scl, .zero, .zero, .s64, true, .regOnly, false⟩ o
  | .send o => .x ⟨0x2D0, 7, .none, .side, false⟩ o
  | .sendmem o => .x ⟨0x2D1, 8, .s64, .side, false⟩ o
  | .jwait o => .x ⟨0x2D2, 1, .s8, .side, false⟩ o
  | .timepost o => .x ⟨0x2D3, 10, .s32, .side, false⟩ o
  | .timepostCancel o => .x ⟨0x2D3, 1, .s32, .side, false⟩ o
  | .portqry o => .n ⟨0x2D4, .modZero, .none, .scl, .zero, .zero, .s64, false, .lastFaults, false⟩ o
  | .patarm o => .n ⟨0x2D5, .modZero, .none, .scl, .ctlK, .zero, .s32, false, .side, false⟩ o
  | .heapput o => .n ⟨0x2E0, .modZero, .none, .scl, .v32, .f32, .none, true, .side, false⟩ o
  | .heappop w o => .n ⟨0x2E1, .wbit, .none, .scl, .zero, .zero, .v64, true, .side, false⟩ { o with ty := if w then .n32 else .i32 }
  | .heapdone o => .n ⟨0x2E2, .modZero, .none, .scl, .v32, .zero, .none, true, .side, false⟩ o
  | .gainadd o => .n ⟨0x2E3, .modZero, .none, .scl, .v32, .f32, .none, true, .side, false⟩ o
  | .heapsum o => .n ⟨0x2E4, .modZero, .none, .scl, .zero, .zero, .s64, true, .side, false⟩ o
  | .heapdrain o => .n ⟨0x2E5, .modZero, .none, .scl, .zero, .zero, .v64, true, .side, false⟩ o
  | .kwsel o => .n ⟨0x300, .modZero, .none, .scl, .zero, .zero, .s32, false, .lastFaults, false⟩ o
  | .kwret o => .n ⟨0x301, .modZero, .none, .kwret, .zero, .zero, .none, false, .lastFaults, false⟩ o
  | .kwload o => .x ⟨0x302, 3, .s32, .side, true⟩ o
  | .kwswap o => .n ⟨0x303, .modZero, .none, .scl, .sclNoLit, .sclNoLit, .s32, false, .side, true⟩ o
  | .kwinv o => .n ⟨0x304, .modZero, .none, .scl, .zero, .zero, .s32, false, .side, true⟩ o
  | .tlbinv o => .n ⟨0x30C, .modZero, .none, .scl, .scl, .scl, .s32, false, .side, true⟩ o
  | .wipe o => .x ⟨0x30D, 3, .s32, .side, true⟩ o
  | .patternFire _ => .event
  | .gangAdmission _ => .event
  | .supervisorPreempt _ => .event
  | .saveDrainTimeout _ => .event
  | .loadReply _ _ _ => .event
  | .rejectRetry _ => .event
  | .parkWake _ => .event
  | .issueAgeGuard _ => .event
  | .memportAtomic _ => .event
  | .memportReduction _ => .event
  | .fenceSatisfied _ => .event
  | .copyLineLand _ _ => .event
  | .copyComplete _ => .event
  | .copyFail _ _ => .event
  | .collComplete _ _ => .event
  | .collPeerAbort _ => .event
  | .matrixQueueExecute _ => .event
  | .sendmemComplete _ => .event
  | .heapUnitApply _ => .event
  | .heapPopperWake _ _ => .event
  | .portSwapIn _ _ => .event
  | .portSenderRetry _ _ => .event
  | .timerPost _ _ => .event
  | .sleepDeadline _ => .event
  | .gangWatchdogExpiry _ => .event
  | .partitionWatchdogExpiry _ => .event
  | .partitionWatchdogRestart _ => .event
  | .codePageVerified _ _ => .event
  | .pageMigration _ _ _ => .event
  | .hostCompletionTimeout _ _ => .event
  | .hostStoreFail _ => .event
  | .hostPortWrite _ _ _ => .event
  | .hostApertureWrite _ _ _ => .event
  | .hostApertureRead _ _ _ => .event
  | .hostAtomicop _ _ => .event
  | .functionLevelReset _ => .event
  | .ctxgo _ _ => .event
  | .registerWrite _ _ => .event
  | .ptmResponse _ => .event
  | .ppsInput _ => .event
  | .timeSourceLoss => .event
  | .flitCrcFail _ => .event
  | .rankUnreachable _ => .event
  | .ensembleRegister _ => .event
  | .ensembleDeregister _ _ => .event
  | .uncorrectableError _ _ => .event
  | .killRequest _ => .event
  | .driverKillRequest _ => .event
  | .allocScr _ => .event
  | .allocHbm _ => .event
  | .free _ => .event
  | .place _ => .event
  | .mboxen _ => .event
  | .powerGood _ => .event
  | .powerWindow _ _ => .event
  | .inputFault => .event
  | .powerOff => .event
  | .reset _ => .event
  | .dump _ _ => .event
  | .dumpTimeout _ => .event
  | .cap _ _ => .event
  | .time _ => .event
  | .counters _ => .event
  | .firmware _ _ => .event
  | .attest => .event
  | .getVersion => .event
  | .getCapabilities => .event
  | .negotiateAlgorithms _ => .event
  | .getDigests => .event
  | .getCertificate => .event
  | .challenge _ => .event
  | .getMeasurements _ => .event
  | .lifecycleTransition _ _ => .event
  | .codeKeyEnrol _ _ _ _ => .event
  | .debugRightGrant _ _ => .event
  | .debugRightEnd _ => .event
  | .halt _ => .event
  | .step _ => .event
  | .resume _ => .event
  | .stopat _ _ _ => .event
  | .debuggerEdit _ => .event
  | .watchpointWrite _ _ _ _ => .event
  | .breakpointWrite _ _ _ _ _ => .event
  | .stopRecordRead _ => .event
  | .replayCheckpoint _ => .event
  | .laneCycleRead _ => .event
  | .laneCycleClear _ => .event
  | .domainAcknowledgement _ => .event
  | .linkRetrainDone _ => .event
  | .inputBackInRange => .event
  | .keywayStatusWrite _ => .event
  | .wipeCompletion _ => .event
  | .tlbinvStatusWrite _ => .event
  | .ppsOutput => .event
  | .dumpStreamEnd _ => .event
  | .gangKill _ _ => .event
  | .recordConsume _ _ _ => .event

/-! ### Fields of the engine-specific bits (R148, R213, R308, R408) -/

def XOp.member (o : XOp) : Nat := (o.x >>> 15).toNat % 16
def XOp.all (o : XOp) : Bool := o.x.getLsbD 14
def XOp.segmask (o : XOp) : Nat := o.x.toNat % 64
def XOp.seg (o : XOp) : Nat := (o.x >>> 12).toNat % 8
def XOp.rnd (o : XOp) : Rnd :=
  match (o.x >>> 10).toNat % 4 with
  | 0 => .rne
  | 1 => .rtz
  | 2 => .rup
  | _ => .rdn
def XOp.sat (o : XOp) : Bool := o.x.getLsbD 9
def XOp.sp (o : XOp) : Bool := o.x.getLsbD 8
def XOp.vbase (o : XOp) : Nat := o.x.toNat % 256
def XOp.q (o : XOp) : Nat := o.x.toNat % 16
def XOp.bsp (o : XOp) : Bool := o.x.getLsbD 18
def XOp.scl (o : XOp) : Bool := o.x.getLsbD 17
def XOp.sba (o : XOp) : Nat := (o.x >>> 15).toNat % 4
def XOp.sbb (o : XOp) : Nat := (o.x >>> 13).toNat % 4
/-- The F bit of SEND and SENDMEM: 0 `.w`, 1 `.f` (R308). -/
def XOp.f (o : XOp) : Bool := o.x.getLsbD 0
/-- The SSP bit of SENDMEM: 1 source in gang memory (R308). -/
def XOp.ssp (o : XOp) : Bool := o.x.getLsbD 1
/-- The KIND of WIPE (R408). -/
def XOp.wkind (o : XOp) : Nat := o.x.toNat % 4

/-- The pairs MMA accepts (R149). -/
def mmaPairOk (a b : BitVec 6) : Bool :=
  (a == 0x03#6 && b == 0x03#6) || (a == 0x02#6 && b == 0x02#6) || (fmtIsB8 a && fmtIsB8 b)
  || ((a == 0x08#6 || a == 0x09#6) && (b == 0x08#6 || b == 0x09#6)) || (a == 0x0C#6 && b == 0x0C#6)

/-- The formats of ACCRD and ACCWR, f32e apart (R148). -/
def accFmtOk (a : BitVec 6) : Bool := a == 0x00#6 || a == 0x02#6 || a == 0x03#6 || fmtIsB8 a

/-- The pairs COLL accepts (R215). -/
def collPairOk (e a : BitVec 6) : Bool :=
  ((e == 0x00#6 || e == 0x01#6 || e == 0x02#6 || e == 0x03#6) && e == a)
  || ((e == 0x02#6 || e == 0x03#6) && a == 0x00#6) || (fmtIsInt e && e == a)

/-- Registers of one lane that ACCRD or ACCWR moves under format `f` (R163). -/
def accRegs (f : BitVec 6) : Nat := if f == 0x00#6 || f == 0x0E#6 then 32 else if fmtIsB8 f then 8 else 16

/-- The AOP codes that an atomic or reduction accepts (R204). -/
def aopOk (f : AInfo) (c : BitVec 4) : Bool :=
  if f.space == .host then c == 0x0#4 || c == 0x1#4 || (0x9 ≤ c.toNat && c.toNat ≤ 0xC)
  else f.reply || c.toNat ≤ 8 || 0xD ≤ c.toNat

/-- The 64-bit operations of R205. -/
def aop64 (c : BitVec 4) : Bool := c == 0x1#4 || c == 0xB#4 || c == 0xC#4 || c == 0xE#4

/-- The compare operations, which alone use S2 (R205). -/
def aopCas (c : BitVec 4) : Bool := c == 0xA#4 || c == 0xC#4

/-- The floating operations of R205. -/
def aopFloat (c : BitVec 4) : Bool := 0xD ≤ c.toNat

/-- The type at which the data of an atomic is read and its literals widened (R205, R206). -/
def aopTy (c : BitVec 4) : Ty :=
  if c == 0xD#4 then .f32 else if c == 0xE#4 then .f64 else if c == 0xF#4 then .bf16x2
  else if aop64 c then .n64 else .n32

/-- Bytes a SIZE code moves in each lane (R41). -/
def sizeBytes (c : BitVec 3) : Nat := 2 ^ c.toNat

/-- Registers of one lane that a SIZE code moves (R177). -/
def sizeRegs (c : BitVec 3) : Nat := max (sizeBytes c / 4) 1

/-- The register alignment of a SIZE code (R177). -/
def sizeAlign (c : BitVec 3) : Nat := min (sizeRegs c) 4

/-- The scopes a space allows (R167). -/
def Space.scopeOk : Space → Scope → Bool
  | .spill, s => s == .warp
  | .gang, s => s == .warp || s == .gang
  | _, _ => true

/-- The CP values a space allows (R167). -/
def Space.cpOk : Space → CachePolicy → Bool
  | .scr, _ | .dom, _ => true
  | _, c => c == .normal

/-- Does the space take 64-bit addresses (R167)? -/
def Space.wide : Space → Bool
  | .dom | .host => true
  | _ => false

/-- The space codes of R167. -/
def Space.code : Space → Nat
  | .spill => 0 | .gang => 1 | .scr => 2 | .dom => 3 | .host => 4

/-! ### Special registers: kind and access of each number (R33) -/

/-- The special-register numbers that are assigned. -/
def srAssigned (n : Nat) : Bool := n ≤ 0x16 || (0x20 ≤ n && n ≤ 0x26)

/-- The per-lane special registers: LANEID and VPC. -/
def srVector (n : Nat) : Bool := n == 0x00 || n == 0x0E

/-- The special registers that WRSR may write. -/
def srWritable (n : Nat) : Bool :=
  n == 0x0A || n == 0x0B || n == 0x0D || (0x0F ≤ n && n ≤ 0x15) || n == 0x24 || n == 0x25

/-! ### Check 3 of R54: reserved and unused fields -/

/-- A source under its rule: an unused field is zero, a literal lies among its codes. A floating constant where a rule lists integer codes,
a negative literal as the control of a cross-lane instruction, and a KWRET literal other than 0 count as literals out of range. (DESIGN
CHOICE, log 70: unsafe.) -/
def SRule.ok3 : SRule → Src → Bool
  | .zero, s => s == .vec 0#8
  | .lit m, .lit n => n.toNat ≤ m
  | .lit _, .nlit _ | .lit _, .fc _ => false
  | .ctl, .lit _ => true
  | .ctl, _ => false
  | .ctlK, .nlit _ | .ctlK, .fc _ => false
  | .kwret, .lit n => n == 0#8
  | .kwret, .nlit _ | .kwret, .fc _ => false
  | _, _ => true

/-- V and D under the destination rule (R38): both zero when nothing is written, D zero when V is set; an instruction that needs a mask in D takes
no V. (DESIGN CHOICE, log 70: unsafe.) -/
def DRule.ok3 : DRule → Bool → BitVec 9 → Bool
  | .none, v, d => !v && d == 0#9
  | .mask0, v, _ | .s8, v, _ => !v
  | _, v, d => !v || d == 0#9

def NInfo.ok3 (f : NInfo) (o : NOp) : Bool :=
  f.tys.has o.ty && f.rnd.ok o.ty o.rnd && (f.guard || o.g == .all)
  && f.s0.ok3 o.s0 && f.s1.ok3 o.s1 && f.s2.ok3 o.s2 && f.d.ok3 o.v o.d

/-- The value of a control literal (R141). -/
def Src.ctlVal : Src → Nat
  | .lit n => n.toNat
  | _ => 0

/-- SG codes 6 and 7 are reserved (R141). -/
def sgOk (n : Nat) : Bool := n % 8 ≤ 5

/-- What an instruction's own description refuses with ILLEGAL_OP beyond its row. -/
def Instr.special3 : Instr → Bool
  | .vcvt o =>
    let dst := BitVec.ofNat 6 o.s1.ctlVal
    let src := BitVec.ofNat 6 o.s2.ctlVal
    o.s1.ctlVal < 0x80 && o.s2.ctlVal < 0x40 && fmtValid dst && fmtValid src && dst != 0x0E#6 && src != 0x0E#6
      && fmtIsComplex dst == fmtIsComplex src && (!fmtIsB8 dst || o.rnd == .rne || o.rnd == .rtz)
  | .vfdot4 o =>
    let f := BitVec.ofNat 6 o.s2.ctlVal
    match o.s2 with
    | .lit n => n.toNat < 0x40 && (match o.ty with
      | .f32 => fmtIsB8 f
      | .i32 => f == 0x08#6
      | _ => f == 0x09#6)
    | _ => true
  | .vshfl o => sgOk o.s2.ctlVal && o.s2.ctlVal < 0x20
  | .vbcast o => sgOk o.s1.ctlVal && o.s1.ctlVal < 8
  | .vreduce o => sgOk o.s2.ctlVal && o.s2.ctlVal < 0x80 && o.s2.ctlVal / 8 % 16 ≤ (if o.ty.isInt then 5 else 2)
  | .vscan o => sgOk o.s2.ctlVal && o.s2.ctlVal / 8 % 16 ≤ (if o.ty.isInt then 5 else 2)
  | .vballot o | .vmatch o => sgOk o.s2.ctlVal && o.s2.ctlVal < 8
  | .vvote o => sgOk o.s2.ctlVal && o.s2.ctlVal < 0x18
  | .patarm o => o.s1.ctlVal == 0 || o.s1.ctlVal == 1 || o.s1.ctlVal == 3
  | .heappop _ o => o.ty == .i32
  | .rdsr o => o.imm.toNat < 0x40 && srAssigned o.imm.toNat
  | .wrsr o => o.imm.toNat < 0x40 && srAssigned o.imm.toNat && srWritable o.imm.toNat
  | .mgroup o => o.afmt == 0#6 && o.bfmt == 0#6 && !o.ru && o.x.toNat < 16 && 1 ≤ o.q && o.q ≤ 12
  | .mma o => mmaPairOk o.afmt o.bfmt && o.x.toNat % 0x2000 == 0
      && (!o.scl || (fmtIsB8 o.afmt && fmtIsB8 o.bfmt)) && (o.scl || (o.sba == 0 && o.sbb == 0))
  | .accz o | .accfree o => o.afmt == 0#6 && o.bfmt == 0#6 && !o.ru && (o.x.toNat / 64) % 256 == 0
      && o.segmask != 0 && o.member ≤ 11 && (!o.all || o.member == 0)
  | .accrd o => accFmtOk o.afmt && o.bfmt == 0#6 && !o.ru && o.x.toNat % 512 == 0 && o.member ≤ 11 && o.seg ≤ 5
      && (!fmtIsB8 o.afmt || o.rnd == .rne || o.rnd == .rtz)
  | .accwr o => accFmtOk o.afmt && o.bfmt == 0#6 && !o.ru && (o.x.toNat / 256) % 16 == 0 && o.member ≤ 11 && o.seg ≤ 5
  | .accst o => (accFmtOk o.afmt || o.afmt == 0x0E#6) && o.bfmt == 0#6 && !o.ru && o.x.toNat % 256 == 0 && o.member ≤ 11
      && o.seg ≤ 5 && (!fmtIsB8 o.afmt || o.rnd == .rne || o.rnd == .rtz)
  | .accld o => (accFmtOk o.afmt || o.afmt == 0x0E#6) && o.bfmt == 0#6 && !o.ru && o.x.toNat % 256 == 0 && o.member ≤ 11
      && o.seg ≤ 5 && o.rnd == .rne && !o.sat
  | .coll o => collPairOk o.afmt o.bfmt && !o.ru && o.x == 0#19
  | .send o => o.afmt == 0#6 && o.bfmt == 0#6 && !o.ru && o.x.toNat < 2
  | .sendmem o => o.afmt == 0#6 && o.bfmt == 0#6 && !o.ru && o.x.toNat < 4
  | .timepost o => o.afmt == 0#6 && o.bfmt == 0#6 && !o.ru && o.x == 0#19
  | .timepostCancel o => o.afmt == 0#6 && o.bfmt == 0#6 && !o.ru && o.x == 1#19
  | .wipe o => o.afmt == 0#6 && o.bfmt == 0#6 && !o.ru && o.x.toNat < 3
  | .jwait o | .copy o | .kwload o | .accspill o | .accfill o => o.afmt == 0#6 && o.bfmt == 0#6 && !o.ru && o.x == 0#19
  | _ => true

/-- Check 3 of R54 over a whole instruction: no reserved value, no unused field in use. -/
def Instr.ok3 (i : Instr) : Bool :=
  i.special3 && match i.enc with
  | .n f o => f.ok3 o
  | .i f o => f.s0.ok3 o.s0 && f.d.ok3 o.v o.d
  | .b f o => f.s0.ok3 o.s0 && (f.tgt || o.tgt == 0#32) && (f.guard || o.g == .all)
  | .ld f o => f.ords.contains o.ord && f.space.scopeOk o.scope && f.space.cpOk o.cp && f.d.ok3 o.v o.d && (f.np || !o.np)
      && (if f.presence then o.size == 7#3 && !o.sgn && o.cp == .normal else !o.sgn || o.size.toNat ≤ 1)
  | .st f o => f.ords.contains o.ord && f.space.scopeOk o.scope && f.space.cpOk o.cp
  | .fence _ o => o.scope != .warp && o.ord != .rlx && (if o.rf then !o.v || o.d == 0#9 else !o.v && o.d == 0#9)
  | .a f o => (f.reply || (!o.v && o.d == 0#9 && (o.ord == .rlx || o.ord == .rel))) && f.space.scopeOk o.scope && aopOk f o.aop
      && (aopCas o.aop || o.s2 == .vec 0#8) && (!o.v || o.d == 0#9)
  | .x f o => f.d.ok3 o.v o.d && (f.blk != 0 || o.s0 == .vec 0#8)
  | .event => true

/-! ### Check 4 of R54: kinds, ranges, pairs, alignment -/

/-- A register, constant or literal operand of one register width, or of a pair (R46). -/
def Src.pairOk (is64 : Bool) : Src → Bool
  | .vec n => !is64 || n.toNat % 2 == 0
  | .latch _ => !is64
  | .scal n => !is64 || n.toNat % 2 == 0
  | .const _ w => !is64 || w.toNat % 2 == 0
  | _ => true

/-- Is the source a floating constant? -/
def Src.isFc : Src → Bool
  | .fc _ => true
  | _ => false

/-- The scalar instruction kinds of R48: scalar, constant, literal, latch. -/
def Src.scalarKind : Src → Bool
  | .vec _ => false
  | _ => true

/-- A source under its rule at type `t` (R46 to R48 and each table); the lane operand of VBCAST is an integer word under every type. (DEDUCED,
log 89: unsafe.) -/
def SRule.ok4 (t : Ty) : SRule → Src → Bool
  | .zero, _ => true
  | .vty, s => s.pairOk t.is64 && (!t.isInt || !s.isFc)
  | .v32, s => !s.isFc
  | .f32, _ => true
  | .v64, s => s.pairOk true && !s.isFc
  | .sty, s => s.scalarKind && s.pairOk t.is64 && (!t.isInt || !s.isFc)
  | .s32, s => s.scalarKind && !s.isFc
  | .scl, .scal _ | .scl, .const _ _ | .scl, .lit _ | .scl, .nlit _ => true
  | .scl, _ => false
  | .sclTy, .scal n => !t.is64 || n.toNat % 2 == 0
  | .sclTy, .const _ w => !t.is64 || w.toNat % 2 == 0
  | .sclTy, .lit _ | .sclTy, .nlit _ => true
  | .sclTy, _ => false
  | .sclNoLit, .scal _ | .sclNoLit, .const _ _ => true
  | .sclNoLit, _ => false
  | .mask, .scal n => 500 ≤ n.toNat
  | .mask, _ => false
  | .scal, .scal _ => true
  | .scal, _ => false
  | .lit _, .lit _ => true
  | .lit _, _ => false
  | .scale, .lit n => n.toNat ≤ 7
  | .scale, _ => false
  | .ctl, _ => true
  | .ctlK, .lit _ => true
  | .ctlK, _ => false
  | .vecOnly, .vec n => !t.is64 || n.toNat % 2 == 0
  | .vecOnly, .latch _ => !t.is64
  | .vecOnly, _ => false
  | .vreg, .vec n => !t.is64 || n.toNat % 2 == 0
  | .vreg, _ => false
  | .vgrp4, .vec n => n.toNat % (if t.is64 then 8 else 4) == 0
  | .vgrp4, _ => false
  | .vgrp3, .vec n => n.toNat % 2 == 0
  | .vgrp3, _ => false
  | .pairSC, .scal n => n.toNat % 2 == 0
  | .pairSC, .const _ w => w.toNat % 2 == 0
  | .pairSC, _ => false
  | .link, .vec _ => true
  | .link, _ => false
  | .brTgt, .vec _ | .brTgt, .latch _ | .brTgt, .scal _ => true
  | .brTgt, _ => false
  | .kwret, .lit _ | .kwret, .vec _ => true
  | .kwret, _ => false
  | .addr32, .vec _ | .addr32, .latch _ | .addr32, .scal _ => true
  | .addr32, _ => false
  | .addr64, .vec n => n.toNat % 2 == 0
  | .addr64, .scal n => n.toNat % 2 == 0
  | .addr64, _ => false
  | .aty, s => s.pairOk t.is64 && (!t.isInt || !s.isFc)
  | .blk _, .scal _ => true
  | .blk _, _ => false
  | .cvt, _ => true

/-- D under its rule at type `t` (R38, R136, R177). -/
def DRule.ok4 (t : Ty) (v : Bool) : DRule → BitVec 9 → Bool
  | .none, _ => true
  | .vty, d => d.toNat ≤ 255 && (!t.is64 || d.toNat % 2 == 0)
  | .v32, d => d.toNat ≤ 255
  | .v64, d => d.toNat ≤ 255 && d.toNat % 2 == 0
  | .vgrp n, d => d.toNat ≤ 255 && d.toNat % (if t.is64 then 2 * n else n) == 0
  | .sty, d => !t.is64 || d.toNat % 2 == 0
  | .s32, _ => true
  | .s64, d => d.toNat % 2 == 0
  | .s8, d => d.toNat % 8 == 0
  | .mask, d => v || 500 ≤ d.toNat
  | .mask0, d => 500 ≤ d.toNat
  | .cvt, d => d.toNat ≤ 255
  | .srd, _ => true
  | .accrd, d => d.toNat ≤ 255

/-- What an instruction's own description refuses with OPERAND_KIND beyond its row. -/
def Instr.special4 : Instr → Bool
  | .vcvt o =>
    let dst := BitVec.ofNat 6 o.s1.ctlVal
    let src := BitVec.ofNat 6 o.s2.ctlVal
    o.s0.pairOk (fmtBits src == 64) && (fmtBits dst != 64 || o.d.toNat % 2 == 0) && (!o.s0.isFc || src.toNat ≤ 3)
  | .rdsr o => !srVector o.imm.toNat || o.d.toNat ≤ 255
  | .accrd o => o.d.toNat + (if o.v then 1 else accRegs o.afmt) ≤ 256
  | .accwr o => o.vbase + accRegs o.afmt ≤ 256
  | _ => true

/-- Check 4 of R54 over a whole instruction. -/
def Instr.ok4 (i : Instr) : Bool :=
  i.special4 && match i.enc with
  | .n f o => f.s0.ok4 o.ty o.s0 && f.s1.ok4 o.ty o.s1 && f.s2.ok4 o.ty o.s2 && f.d.ok4 o.ty o.v o.d
  | .i f o => f.s0.ok4 .i32 o.s0 && f.d.ok4 .i32 o.v o.d
  | .b f o => f.s0.ok4 .i32 o.s0
  | .ld f o => (if f.space.wide then SRule.addr64 else SRule.addr32).ok4 .i32 o.s0
      && (f.presence || (o.d.toNat % sizeAlign o.size == 0 && o.d.toNat + (if o.v then 1 else sizeRegs o.size) ≤ 256))
      && f.d.ok4 .i32 o.v o.d
  | .st f o => (if f.space.wide then SRule.addr64 else SRule.addr32).ok4 .i32 o.s0 && (match o.data with
      | .vec n => n.toNat % sizeAlign o.size == 0 && n.toNat + sizeRegs o.size ≤ 256
      | .latch _ => sizeBytes o.size ≤ 4
      | .scal n => n.toNat % sizeAlign o.size == 0 && n.toNat + sizeRegs o.size ≤ 512
      | _ => false)
  | .fence _ _ => true
  | .a f o => (if f.space.wide then SRule.addr64 else SRule.addr32).ok4 .i32 o.s0
      && SRule.aty.ok4 (aopTy o.aop) o.s1 && (!aopCas o.aop || SRule.aty.ok4 (aopTy o.aop) o.s2)
      && (if aop64 o.aop then DRule.v64 else DRule.v32).ok4 .i32 o.v o.d
  | .x f o => (f.blk == 0 || (SRule.blk f.blk).ok4 .i32 o.s0) && f.d.ok4 .i32 o.v o.d
  | .event => true

/-! ### The registers an instruction names (checks 5 and 6 of R54, R31, R350) -/

/-- A run of consecutive registers: `n` vector or scalar registers from `base`. -/
structure RegRun where
  vec : Bool
  base : Nat
  n : Nat
  deriving DecidableEq, Repr

/-- The registers of a source read as `n` consecutive words. -/
def Src.runs (n : Nat) : Src → List RegRun
  | .vec r => [⟨true, r.toNat, n⟩]
  | .scal r => [⟨false, r.toNat, n⟩]
  | _ => []

/-- The registers a source names under its rule. -/
def SRule.runs (t : Ty) : SRule → Src → List RegRun
  | .zero, _ => []
  | .vty, s | .sty, s | .aty, s | .vecOnly, s | .vreg, s | .sclTy, s => s.runs (if t.is64 then 2 else 1)
  | .v64, s | .pairSC, s | .addr64, s => s.runs 2
  | .vgrp4, s => s.runs (if t.is64 then 8 else 4)
  | .vgrp3, s => s.runs (if t.is64 then 6 else 3)
  | .blk n, s => s.runs n
  | .link, _ => []
  | .cvt, _ => []
  | _, s => s.runs 1

/-- The registers a destination names under its rule; JWAIT names sD, and R309 checks its further scalars when it executes. -/
def DRule.runs (t : Ty) (v : Bool) (d : Nat) : DRule → List RegRun
  | .none => []
  | .vty => if v then [] else [⟨true, d, if t.is64 then 2 else 1⟩]
  | .v32 | .cvt | .accrd => if v then [] else [⟨true, d, 1⟩]
  | .v64 => if v then [] else [⟨true, d, 2⟩]
  | .vgrp n => if v then [] else [⟨true, d, if t.is64 then 2 * n else n⟩]
  | .sty => if v then [] else [⟨false, d, if t.is64 then 2 else 1⟩]
  | .s32 | .srd | .mask => if v then [] else [⟨false, d, 1⟩]
  | .mask0 => [⟨false, d, 1⟩]
  | .s64 => if v then [] else [⟨false, d, 2⟩]
  | .s8 => [⟨false, d, 1⟩]

/-- The mask a guard reads. -/
def Guard.runs : Guard → List RegRun
  | .mask k => [⟨false, 500 + k.val, 1⟩]
  | _ => []

/-- The registers an instruction reads at issue: its sources, a guard mask, and D where D is also read. -/
def Instr.reads (i : Instr) : List RegRun :=
  match i with
  | .vcvt o => o.s0.runs (if fmtBits (BitVec.ofNat 6 o.s2.ctlVal) == 64 then 2 else 1) ++ o.g.runs
  | .vpk8 o => o.s0.runs 1 ++ o.s1.runs 1 ++ o.s2.runs 1 ++ o.g.runs ++ [⟨true, o.d.toNat, 1⟩]
  | .vfdot4 o => o.s0.runs 1 ++ o.s1.runs 1 ++ o.g.runs ++ [⟨true, o.d.toNat, 1⟩]
  | .accwr o => [⟨true, o.vbase, accRegs o.afmt⟩]
  | .jwait o => o.s0.runs 1
  | _ => match i.enc with
    | .n f o => f.s0.runs o.ty o.s0 ++ f.s1.runs o.ty o.s1 ++ f.s2.runs o.ty o.s2 ++ o.g.runs
    | .i f o => f.s0.runs .i32 o.s0
    | .b f o => f.s0.runs .i32 o.s0 ++ o.g.runs
    | .ld f o => o.s0.runs (if f.space.wide then 2 else 1)
    | .st f o => o.s0.runs (if f.space.wide then 2 else 1) ++ o.data.runs (sizeRegs o.size)
    | .fence _ _ => []
    | .a f o => o.s0.runs (if f.space.wide then 2 else 1) ++ o.s1.runs (if aop64 o.aop then 2 else 1)
        ++ (if aopCas o.aop then o.s2.runs (if aop64 o.aop then 2 else 1) else [])
    | .x f o => if f.blk == 0 then [] else o.s0.runs f.blk
    | .event => []

/-- The registers an instruction writes. -/
def Instr.writes (i : Instr) : List RegRun :=
  match i with
  | .vcvt o => if o.v then [] else [⟨true, o.d.toNat, if fmtBits (BitVec.ofNat 6 o.s1.ctlVal) == 64 then 2 else 1⟩]
  | .call o => o.s0.runs 1
  | .lend o => o.s0.runs 1
  | .rdsr o => if o.v then [] else [⟨srVector o.imm.toNat, o.d.toNat, 1⟩]
  | .accrd o => if o.v then [] else [⟨true, o.d.toNat, accRegs o.afmt⟩]
  | .vaddc o | .vsubb o => DRule.vty.runs o.ty o.v o.d.toNat ++ o.s2.runs 1
  | _ => match i.enc with
    | .n f o => f.d.runs o.ty o.v o.d.toNat
    | .i f o => f.d.runs .i32 o.v o.d.toNat
    | .b _ _ => []
    | .ld f o => (if f.presence then f.d.runs .i32 o.v o.d.toNat else if o.v then [] else [⟨true, o.d.toNat, sizeRegs o.size⟩])
        ++ (if o.np then [⟨false, 511, 1⟩] else [])
    | .st _ _ => []
    | .fence _ o => if o.rf && !o.v then [⟨false, o.d.toNat, 1⟩] else []
    | .a f o => if f.reply && !o.v then [⟨true, o.d.toNat, if aop64 o.aop then 2 else 1⟩] else []
    | .x f o => f.d.runs .i32 o.v o.d.toNat
    | .event => []

/-- The latches an instruction reads. -/
def Src.latches : Src → List Nat
  | .latch k => [k.toNat]
  | _ => []

def Instr.latchReads (i : Instr) : List Nat :=
  match i.enc with
  | .n _ o => o.s0.latches ++ o.s1.latches ++ o.s2.latches
  | .i _ o => o.s0.latches
  | .b _ o => o.s0.latches
  | .ld _ o => o.s0.latches
  | .st _ o => o.s0.latches ++ o.data.latches
  | .fence _ _ => []
  | .a _ o => o.s0.latches ++ o.s1.latches ++ o.s2.latches
  | .x _ o => o.s0.latches
  | .event => []

/-- Does the operation shift a result, and not an empty entry, into b0 (R25)? -/
def Instr.fillsLatch (i : Instr) : Bool :=
  match i with
  | .call _ | .lend _ => true
  | .mjoin _ | .mleave _ => true
  | _ => match i.enc with
    | .n f _ => f.d != .none
    | .i f _ => f.d != .none
    | .b _ _ => false
    | .ld f _ => f.d != .none
    | .st _ _ => false
    | .fence _ o => o.rf
    | .a f _ => f.reply
    | .x f _ => f.d != .none && f.d != .s8
    | .event => false

/-- The guard of an operation: formats N and B carry one (R39). -/
def Instr.guard (i : Instr) : Guard :=
  match i.enc with
  | .n _ o => o.g
  | .b _ o => o.g
  | _ => .all

/-- Where the operation may stand in its step. -/
def Instr.pos (i : Instr) : Pos :=
  match i with
  | .vreduce o | .vscan o => if o.ty.isInt then .regOnly else .mayFault
  | _ => match i.enc with
    | .n f _ => f.pos
    | .i f _ => f.pos
    | .b f _ => f.pos
    | .ld f _ => f.pos
    | .st f _ => f.pos
    | .fence _ _ => .regOnly
    | .a _ _ => .side
    | .x f _ => f.pos
    | .event => .regOnly

/-- Is the opcode supervisor-only (R52)? -/
def Instr.supervisor (i : Instr) : Bool :=
  match i.enc with
  | .n f _ => f.sup
  | .x f _ => f.sup
  | _ => false

/-- The end bit E (R37). -/
def Instr.e (i : Instr) : Bool :=
  match i.enc with
  | .n _ o => o.e
  | .i _ o => o.e
  | .b _ o => o.e
  | .ld _ o => o.e
  | .st _ o => o.e
  | .fence _ o => o.e
  | .a _ o => o.e
  | .x _ o => o.e
  | .event => true

/-- The opcode number (R52). -/
def Instr.opcode (i : Instr) : Nat :=
  match i.enc with
  | .n f _ => f.op
  | .i f _ => f.op
  | .b f _ => f.op
  | .ld f _ => f.op
  | .st f _ => f.op
  | .fence op _ => op
  | .a f _ => f.op
  | .x f _ => f.op
  | .event => 0x3FF

end Sys2Proof
end

