-- ==== Sys2Proof/Machine/Num.lean ====
section
/-! DEFINITION. Number formats, exact values and rounding (R84 to R104): `decodeVal` reads a code, `round` is R99 word for word. -/
set_option autoImplicit false

namespace Sys2Proof.Machine

/-! ### Exact values -/

/-- An exact value: NaN (signalling or not), an infinity, or a sign with a magnitude num / den, den positive. A zero keeps
its sign. -/
inductive XReal
  | nan (sig : Bool)
  | inf (neg : Bool)
  | fin (neg : Bool) (num den : Nat)
  deriving DecidableEq, Repr, Inhabited

/-- An exact integer. -/
def XReal.ofInt (z : Int) : XReal := .fin (z < 0) z.natAbs 1

/-- Two to an integer power, as numerator and denominator. -/
def pow2 (e : Int) : Nat × Nat := if 0 ≤ e then (2 ^ e.toNat, 1) else (1, 2 ^ (-e).toNat)

/-- x times two to an integer power. -/
def XReal.scale (x : XReal) (e : Int) : XReal :=
  match x with
  | .fin s n d => .fin s (n * (pow2 e).1) (d * (pow2 e).2)
  | y => y

def XReal.neg : XReal → XReal
  | .nan s => .nan s
  | .inf s => .inf (!s)
  | .fin s n d => .fin (!s) n d

def XReal.abs : XReal → XReal
  | .nan s => .nan s
  | .inf _ => .inf false
  | .fin _ n d => .fin false n d

def XReal.isNan : XReal → Bool
  | .nan _ => true
  | _ => false

def XReal.isSig : XReal → Bool
  | .nan s => s
  | _ => false

def XReal.isInf : XReal → Bool
  | .inf _ => true
  | _ => false

def XReal.isZero : XReal → Bool
  | .fin _ n _ => n == 0
  | _ => false

def XReal.signBit : XReal → Bool
  | .nan _ => false
  | .inf s => s
  | .fin s _ _ => s

/-- Is a < b, for values that are not NaN? The two zeros are equal. -/
def XReal.lt (a b : XReal) : Bool :=
  match a, b with
  | .nan _, _ | _, .nan _ => false
  | .inf s, .inf t => s && !t
  | .inf s, .fin _ _ _ => s
  | .fin _ _ _, .inf t => !t
  | .fin s n d, .fin t m e =>
    let x : Int := (if s then -(n : Int) else n) * e
    let y : Int := (if t then -(m : Int) else m) * d
    x < y

def XReal.eqv (a b : XReal) : Bool := !a.isNan && !b.isNan && !a.lt b && !b.lt a

/-! ### Flags (R34): bit n of FLAGS has weight 2^n; bit 7 is SCALE_NAN -/

def fINVALID : Nat := 1
def fDIV_ZERO : Nat := 2
def fOVERFLOW : Nat := 4
def fUNDERFLOW : Nat := 8
def fINEXACT : Nat := 16
def fINT_DIV_ZERO : Nat := 32
def fCONV_RANGE : Nat := 64
def fSCALE_NAN : Nat := 128

/-- A code with the flags raised in forming it. -/
abbrev Flagged := Nat × Nat

/-! ### Formats -/

/-- A number format: an integer, a sign/exponent/trailing format of R87 or R96, or one of binary8 (R92): precision, with
infinities, unsigned. -/
inductive Fmt
  | int (signed : Bool) (bits : Nat)
  | ieee (ebits tbits : Nat)
  | b8 (p : Nat) (x n : Bool)
  deriving DecidableEq, Repr, Inhabited

def Fmt.f32 : Fmt := .ieee 8 23
def Fmt.f64 : Fmt := .ieee 11 52
def Fmt.f16 : Fmt := .ieee 5 10
def Fmt.bf16 : Fmt := .ieee 8 7
def Fmt.f32e : Fmt := .ieee 10 23

/-- The format of a six-bit code (R49); a complex code gives the format of its parts. -/
def Fmt.ofCode (c : BitVec 6) : Fmt :=
  match c.toNat with
  | 0x00 | 0x0D => .f32
  | 0x01 => .f64
  | 0x02 | 0x0C => .f16
  | 0x03 => .bf16
  | 0x04 => .int true 32
  | 0x05 => .int false 32
  | 0x06 => .int true 16
  | 0x07 => .int false 16
  | 0x08 => .int true 8
  | 0x09 => .int false 8
  | 0x0A => .int true 64
  | 0x0B => .int false 64
  | 0x0E => .f32e
  | n => .b8 (n % 8 + 1) (n / 8 % 2 == 1) (n / 32 == 1)

/-- The format of one element of a type (R85, R87, R91). -/
def Fmt.ofTy : Ty → Fmt
  | .i32 => .int true 32 | .n32 => .int false 32 | .i64 => .int true 64 | .n64 => .int false 64
  | .i16x2 => .int true 16 | .n16x2 => .int false 16 | .i8x4 => .int true 8 | .n8x4 => .int false 8
  | .f32 | .cf32 => .f32 | .f64 => .f64 | .f16x2 | .cf16 => .f16 | .bf16x2 => .bf16

def Fmt.isInt : Fmt → Bool
  | .int _ _ => true
  | _ => false

/-- Width of a code. -/
def Fmt.width : Fmt → Nat
  | .int _ b => b
  | .ieee e t => 1 + e + t
  | .b8 _ _ _ => 8

/-- Trailing bits t (R87, R92). -/
def Fmt.tbits : Fmt → Nat
  | .int _ _ => 0
  | .ieee _ t => t
  | .b8 p _ _ => p - 1

/-- Exponent bits. -/
def Fmt.ebits : Fmt → Nat
  | .int _ _ => 0
  | .ieee e _ => e
  | .b8 p _ n => if n then 9 - p else 8 - p

def Fmt.bias : Fmt → Nat
  | .int _ _ => 0
  | .ieee e _ => 2 ^ (e - 1) - 1
  | .b8 p _ n => if n then 2 ^ (8 - p) else 2 ^ (7 - p)

/-- The weight of the sign bit; 0 for an unsigned kind. -/
def Fmt.signWeight : Fmt → Nat
  | .int _ _ => 0
  | .ieee e t => 2 ^ (e + t)
  | .b8 _ _ n => if n then 0 else 128

/-- The default NaN (R87, R93, R96). -/
def Fmt.defaultNan : Fmt → Nat
  | .int _ _ => 0
  | .ieee e t => (2 ^ e - 1) * 2 ^ t + 2 ^ (t - 1)
  | .b8 _ _ n => if n then 0xFF else 0x80

/-- The code of the largest finite value (R87, R93). -/
def Fmt.maxCode : Fmt → Nat
  | .int _ _ => 0
  | .ieee e t => (2 ^ e - 1) * 2 ^ t - 1
  | .b8 _ x n => (if n then 0xFE else 0x7F) - (if x then 1 else 0)

/-- The code of an infinity, where the format has one of that sign (R88, R93). -/
def Fmt.infCode (f : Fmt) (neg : Bool) : Option Nat :=
  match f with
  | .int _ _ => none
  | .ieee e t => some ((2 ^ e - 1) * 2 ^ t + (if neg then 2 ^ (e + t) else 0))
  | .b8 _ x n => if !x then none else if n then (if neg then none else some 0xFE) else some (if neg then 0xFF else 0x7F)

/-- The value of a code whose exponent field is `e` and trailing field `t` (R88, R92). -/
def Fmt.finite (f : Fmt) (neg : Bool) (e t : Nat) : XReal :=
  if e = 0 then (XReal.fin neg t 1).scale (1 - (f.bias : Int) - f.tbits)
  else (XReal.fin neg (2 ^ f.tbits + t) 1).scale ((e : Int) - f.bias - f.tbits)

/-- The exact value of a code (R85, R88, R92, R93). -/
def decodeVal (f : Fmt) (code : Nat) : XReal :=
  match f with
  | .int s b =>
    let c := code % 2 ^ b
    XReal.ofInt (if s && 2 ^ (b - 1) ≤ c then (c : Int) - 2 ^ b else c)
  | .ieee eb tb =>
    let neg := code / 2 ^ (eb + tb) % 2 == 1
    let e := code / 2 ^ tb % 2 ^ eb
    let t := code % 2 ^ tb
    if e = 2 ^ eb - 1 then (if t = 0 then .inf neg else .nan (t < 2 ^ (tb - 1)))
    else f.finite neg e t
  | .b8 p _ n =>
    let c := code % 256
    if c = f.defaultNan then .nan false
    else if f.infCode false = some c then .inf false
    else if f.infCode true = some c then .inf true
    else f.finite (!n && 128 ≤ c) ((if n then c else c % 128) / 2 ^ (p - 1)) (c % 2 ^ (p - 1))

/-! ### Rounding (R98, R99) -/

/-- n / d rounded to an integer magnitude by a mode, the value's sign given. A tie under RNE takes the even multiple. (DEDUCED, log 17: unsafe.) -/
def roundMag (m : Rnd) (neg : Bool) (n d : Nat) : Nat :=
  let q := n / d
  let r := n % d
  match m with
  | .rtz => q
  | .rup => if !neg && r != 0 then q + 1 else q
  | .rdn => if neg && r != 0 then q + 1 else q
  | .rne => if d < 2 * r || (2 * r == d && q % 2 == 1) then q + 1 else q

/-- floor(log2(n / d)) of a positive value. -/
def floorLog2 (n d : Nat) : Int :=
  let k : Int := (Nat.log2 n : Int) - Nat.log2 d
  let p := pow2 k
  if n * p.2 < p.1 * d then k - 1 else k

/-- n / d rounded to a multiple of 2^q: the multiple. (DEDUCED, log 17: unsafe.) -/
def roundGrid (m : Rnd) (neg : Bool) (n d : Nat) (q : Int) : Nat :=
  let p := pow2 q
  roundMag m neg (n * p.2) (d * p.1)

/-- The code of k 2^q, sign apart, for a grid step q of R99. -/
def Fmt.pack (f : Fmt) (k : Nat) (q : Int) : Nat :=
  if k = 0 then 0
  else
    let h := Nat.log2 k
    if h < f.tbits then k
    else (q + h + f.bias).toNat * 2 ^ f.tbits + (k / 2 ^ (h - f.tbits) - 2 ^ f.tbits)

/-- `round()` into an integer format (R99). -/
def roundInt (s : Bool) (b : Nat) (m : Rnd) (x : XReal) : Flagged :=
  let lo : Int := if s then -(2 ^ (b - 1) : Int) else 0
  let hi : Int := if s then 2 ^ (b - 1) - 1 else 2 ^ b - 1
  let enc (z : Int) : Nat := (z % (2 ^ b : Int)).toNat
  match x with
  | .nan _ => (0, fCONV_RANGE)
  | .inf neg => (enc (if neg then lo else hi), fCONV_RANGE)
  | .fin neg n d =>
    let k := roundMag m neg n d
    let y : Int := if neg then -(k : Int) else k
    if y < lo || hi < y then (enc (if y < 0 then lo else hi), fCONV_RANGE)
    else (enc y, if k * d == n then 0 else fINEXACT)

/-- `round()` of a magnitude into a floating format (R99, from the line q := ... on). -/
def roundFin (f : Fmt) (m : Rnd) (S neg : Bool) (n d : Nat) : Flagged :=
  let sw := if neg then f.signWeight else 0
  if n = 0 then ((match f with | .b8 _ _ _ => 0 | _ => sw), 0)
  else
    let emin : Int := 1 - (f.bias : Int)
    let lg := floorLog2 n d
    let q : Int := max lg emin - f.tbits
    let k := roundGrid m neg n d q
    let k2 := roundGrid m neg n d (lg - f.tbits)
    let tinyB := let a := pow2 (lg - f.tbits); let e := pow2 emin; k2 * a.1 * e.2 < e.1 * a.2
    let maxv := f.finite false (f.maxCode / 2 ^ f.tbits) (f.maxCode % 2 ^ f.tbits)
    let y := (XReal.fin false k 1).scale q
    if maxv.lt y then
      if S then (f.maxCode + sw, fINEXACT ||| fCONV_RANGE)
      else
        let fl := fINEXACT ||| fOVERFLOW
        match f with
        | .b8 _ _ _ => if m == .rtz then (f.maxCode + sw, fl) else ((f.infCode neg).getD f.defaultNan, fl)
        | _ => if m == .rne || (m == .rup && !neg) || (m == .rdn && neg) then ((f.infCode neg).getD f.defaultNan, fl)
               else (f.maxCode + sw, fl)
    else
      let p := pow2 q
      let exact := k * p.1 * d == n * p.2
      let fl := if exact then 0 else if tinyB then fINEXACT ||| fUNDERFLOW else fINEXACT
      if k = 0 then ((match f with | .b8 _ _ _ => 0 | _ => sw), fl) else (f.pack k q + sw, fl)

/-- `round(fmt, mode, x)` of R99 with the saturate option `S`. -/
def round (f : Fmt) (m : Rnd) (S : Bool) (x : XReal) : Flagged :=
  match f with
  | .int s b => roundInt s b m x
  | _ =>
    match x with
    | .nan _ => (f.defaultNan, 0)
    | .inf neg =>
      match f.infCode neg with
      | some c => (c, 0)
      | none =>
        if S then (if neg && f.signWeight == 0 then 0 else f.maxCode + (if neg then f.signWeight else 0), fCONV_RANGE ||| fINEXACT)
        else (f.defaultNan, fINVALID)
    | .fin neg n d =>
      if f.signWeight == 0 && neg && n != 0 then
        let r := roundFin f m S false n d
        if r.1 == 0 then r else if S then (0, fCONV_RANGE ||| fINEXACT) else (f.defaultNan, fINVALID)
      else roundFin f m S neg n d

/-- INVALID for a signalling NaN operand (R90). -/
def sigFlag (x : XReal) : Nat := if x.isSig then fINVALID else 0

/-! ### Exact arithmetic with the special cases of R102 and R121 -/

/-- The exact sum. A zero sum of values that are not both zeros of one sign is +0, and -0 under RDN (R121). -/
def xadd (m : Rnd) (a b : XReal) : XReal × Nat :=
  match a, b with
  | .nan _, _ | _, .nan _ => (.nan false, 0)
  | .inf s, .inf t => if s == t then (.inf s, 0) else (.nan false, fINVALID)
  | .inf s, _ => (.inf s, 0)
  | _, .inf t => (.inf t, 0)
  | .fin s n d, .fin t k e =>
    let z : Int := (if s then -((n * e : Nat) : Int) else (n * e : Nat)) + (if t then -((k * d : Nat) : Int) else (k * d : Nat))
    if z = 0 then (.fin (if s && t then true else if s != t then m == .rdn else false) 0 1, 0)
    else (.fin (z < 0) z.natAbs (d * e), 0)

/-- The exact product. -/
def xmul (a b : XReal) : XReal × Nat :=
  match a, b with
  | .nan _, _ | _, .nan _ => (.nan false, 0)
  | .inf s, .inf t => (.inf (s != t), 0)
  | .inf s, .fin t k _ => if k = 0 then (.nan false, fINVALID) else (.inf (s != t), 0)
  | .fin s n _, .inf t => if n = 0 then (.nan false, fINVALID) else (.inf (s != t), 0)
  | .fin s n d, .fin t k e => (.fin (s != t) (n * k) (d * e), 0)

/-- The exact quotient (R102). -/
def xdiv (a b : XReal) : XReal × Nat :=
  match a, b with
  | .nan _, _ | _, .nan _ => (.nan false, 0)
  | .inf _, .inf _ => (.nan false, fINVALID)
  | .inf s, .fin t _ _ => (.inf (s != t), 0)
  | .fin s _ _, .inf t => (.fin (s != t) 0 1, 0)
  | .fin s n d, .fin t k e =>
    if k = 0 then (if n = 0 then (.nan false, fINVALID) else (.inf (s != t), fDIV_ZERO))
    else (.fin (s != t) (n * e) (d * k), 0)

/-- The floor of a square root by bits, `fuel` of them. -/
def isqrtBits : Nat → Nat → Nat → Nat
  | 0, _, acc => acc
  | fuel + 1, n, acc =>
    let c := acc + 2 ^ fuel
    isqrtBits fuel n (if c * c ≤ n then c else acc)

/-- floor(sqrt n). -/
def isqrt (n : Nat) : Nat := isqrtBits (Nat.log2 n / 2 + 1) n 0

/-- A value that rounds as the square root of n / d does, in every format of this part: the root to 130 bits below its top,
with a sticky half step when it is not exact. (DEDUCED, log 16: unsafe.) -/
def sqrtVal (n d : Nat) : Nat × Nat :=
  let sh := 2 * (140 + Nat.log2 d)
  let t := n * d * 2 ^ sh
  let r := isqrt t
  (2 * r + (if r * r == t then 0 else 1), 2 * d * 2 ^ (sh / 2))

/-! ### FP32e planes (R96) -/

/-- The main-plane word and the two extension bits of an FP32e code. -/
def f32eMain (c : Nat) : Word := BitVec.ofNat 32 (c / 2 ^ 33 % 2 * 2 ^ 31 + c % 2 ^ 31)
def f32eExt (c : Nat) : Nat := c / 2 ^ 31 % 4
/-- The FP32e code of a main-plane word and two extension bits. -/
def f32eCode (main : Word) (ext : Nat) : Nat := main.toNat / 2 ^ 31 * 2 ^ 33 + ext % 4 * 2 ^ 31 + main.toNat % 2 ^ 31

/-! ### Exact expressions (R121, R125, R137) -/

/-- The exact sum of terms: NaN, an invalid sum of infinities (which counts beside a NaN too, R135), an infinity, or a finite sum. A zero sum keeps the sign that all
its terms share and are zeros of; else it is -0 under RDN and +0 under the other modes (R121). (DEDUCED, log 15: unsafe.) -/
def xsum (m : Rnd) (ts : List XReal) : XReal × Nat :=
  let pinf := ts.any (fun t => t == .inf false)
  let ninf := ts.any (fun t => t == .inf true)
  let nan := ts.any XReal.isNan
  if nan || (pinf && ninf) then (.nan false, if pinf && ninf then fINVALID else 0)
  else if pinf then (.inf false, 0)
  else if ninf then (.inf true, 0)
  else
    let r := ts.foldl (fun (a : Int × Nat) t => match t with
      | .fin s n d => (a.1 * d + (if s then -((n * a.2 : Nat) : Int) else (n * a.2 : Nat)), a.2 * d)
      | _ => a) ((0 : Int), 1)
    if r.1 = 0 then
      let zeros (s : Bool) : Bool := ts.all (fun t => t.isZero && t.signBit == s)
      (.fin (if zeros true then true else if zeros false then false else m == .rdn) 0 1, 0)
    else (.fin (r.1 < 0) r.1.natAbs r.2, 0)

/-- The exact sum of products and addends, with the flags of every product and of the sum. -/
def xdot (m : Rnd) (ps : List (XReal × XReal)) (adds : List XReal) : XReal × Nat :=
  let prods := ps.map (fun p => xmul p.1 p.2)
  let r := xsum m (prods.map (·.1) ++ adds)
  (r.1, prods.foldl (fun a p => a ||| p.2) r.2)

end Sys2Proof.Machine
end

