-- ==== Sys2Proof/WellFormed.lean ====
section
/-! DEFINITION. Which instructions are well formed: checks 3 and 4 of R54, which depend on the instruction alone. -/
set_option autoImplicit false

namespace Sys2Proof

/-- An instruction that checks 3 (ILLEGAL_OP) and 4 (OPERAND_KIND) of R54 accept. The checks that need the warp (the
privilege, the register budget, the latches, the step rules) are the machine's. -/
def Instr.wellFormed (i : Instr) : Bool := i.ok3 && i.ok4

/-- Is it one of the 182 native operations, which have an encoding? -/
def Instr.isNative (i : Instr) : Bool :=
  match i.enc with
  | .event => false
  | _ => true

end Sys2Proof
end

