-- ==== Sys2Proof/Decode.lean ====
section
/-! DEFINITION. Decoding and encoding of native operations: the bit layouts of R37 to R46 and the opcode map of R52. Decoding
is total on 64-bit words; a word is refused with the cause of the first of checks 1, 3 and 4 of R54 that fails. -/
set_option autoImplicit false

namespace Sys2Proof

/-! ### Fields of a word, lowest first -/

/-- Put fields (width, value) together, the first lowest. -/
def packBits : List (Nat × Nat) → Nat
  | [] => 0
  | (n, v) :: r => v % 2 ^ n + 2 ^ n * packBits r

/-- Take the fields of the given widths, the first lowest. -/
def unpackBits : List Nat → Nat → List Nat
  | [], _ => []
  | n :: r, w => w % 2 ^ n :: unpackBits r (w / 2 ^ n)

/-! ### Operand fields -/

/-- A source field (R46); the flag says that the field is a reserved one (check 4). A reserved field reads as an operand that
no unused field accepts and that is no literal, so that check 3 still sees what it must. -/
def Src.ofField (f : Nat) : Src × Bool :=
  let n := f % 512
  match f / 512 % 4 with
  | 0 => if n < 256 then (.vec (BitVec.ofNat 8 n), false) else if n < 260 then (.latch (BitVec.ofNat 2 (n - 256)), false)
         else (.vec 1#8, true)
  | 1 => (.scal (BitVec.ofNat 9 n), false)
  | 2 => (.const (BitVec.ofNat 2 (n / 128)) (BitVec.ofNat 7 (n % 128)), false)
  | _ => if n < 0x100 then (.lit (BitVec.ofNat 8 n), false)
         else if n < 0x180 then (.nlit (BitVec.ofNat 7 (n - 0x100)), false)
         else if n < 0x1C0 then (.fc (BitVec.ofNat 6 (n - 0x180)), false) else (.vec 1#8, true)

/-- The field of a source (R46). -/
def Src.field : Src → Nat
  | .vec n => n.toNat
  | .latch k => 256 + k.toNat
  | .scal n => 512 + n.toNat
  | .const b w => 1024 + 128 * b.toNat + w.toNat
  | .lit n => 1536 + n.toNat
  | .nlit n => 1536 + 0x100 + n.toNat
  | .fc k => 1536 + 0x180 + k.toNat

/-- The data field [52:43] of a store (R42), and whether it is a reserved one. -/
def Src.ofData (f : Nat) : Src × Bool :=
  let n := f % 512
  if f / 512 % 2 = 1 then (.scal (BitVec.ofNat 9 n), false)
  else if n < 256 then (.vec (BitVec.ofNat 8 n), false)
  else if n < 260 then (.latch (BitVec.ofNat 2 (n - 256)), false)
  else (.vec 0#8, true)

/-- The data field of a store's source (R42); the other kinds have none. -/
def Src.dataField : Src → Nat
  | .vec n => n.toNat
  | .latch k => 256 + k.toNat
  | .scal n => 512 + n.toNat
  | _ => 511

/-- The guard field G (R45); `none` is reserved. -/
def Guard.ofCode (n : Nat) : Option Guard :=
  if n = 0 then some .all else if h : 1 ≤ n ∧ n ≤ 12 then some (.mask ⟨n - 1, by omega⟩) else if n = 13 then some .first else none

def Guard.code : Guard → Nat
  | .all => 0
  | .mask k => k.val + 1
  | .first => 13

def Rnd.ofCode : Nat → Rnd
  | 0 => .rne
  | 1 => .rtz
  | 2 => .rup
  | _ => .rdn

def Rnd.code : Rnd → Nat
  | .rne => 0 | .rtz => 1 | .rup => 2 | .rdn => 3

def Order.ofCode : Nat → Order
  | 0 => .rlx
  | 1 => .acq
  | 2 => .rel
  | _ => .ar

def Order.code : Order → Nat
  | .rlx => 0 | .acq => 1 | .rel => 2 | .ar => 3

/-- The SCOPE field (R41); `none` is reserved. -/
def Scope.ofCode : Nat → Option Scope
  | 0 => some .warp
  | 1 => some .gang
  | 2 => some .part
  | 3 => some .dom
  | 4 => some .sys
  | _ => none

def Scope.code : Scope → Nat
  | .warp => 0 | .gang => 1 | .part => 2 | .dom => 3 | .sys => 4

def CachePolicy.ofCode : Nat → CachePolicy
  | 0 => .normal
  | 1 => .stream
  | 2 => .keep
  | _ => .bypass

def CachePolicy.code : CachePolicy → Nat
  | .normal => 0 | .stream => 1 | .keep => 2 | .bypass => 3

/-! ### The opcode map -/

/-- The format of an opcode, with the instruction it makes of that format's record. -/
inductive Form
  | n (mk : NOp → Instr)
  | i (mk : IOp → Instr)
  | b (mk : BOp → Instr)
  | ld (mk : LdOp → Instr)
  | st (mk : StOp → Instr)
  | fence (mk : FenceOp → Instr)
  | a (mk : AOp → Instr)
  | x (mk : XOp → Instr)

/-- The format N opcodes of R52 (part 0). -/
def rowsN0 : List (Nat × Form) :=
  [(0x000, .n .nop),
   (0x006, .n .elect),
   (0x009, .n .yield),
   (0x00A, .n .sleep),
   (0x00C, .n .tret),
   (0x00D, .n .signal),
   (0x040, .n .vadd),
   (0x041, .n .vsub),
   (0x042, .n .vaddc),
   (0x043, .n .vsubb),
   (0x044, .n .vmul),
   (0x045, .n .vmulh),
   (0x046, .n .vmad),
   (0x047, .n .vmadw),
   (0x048, .n .vdiv),
   (0x049, .n .vrem),
   (0x04A, .n .vmin),
   (0x04B, .n .vmax),
   (0x04C, .n .vabs),
   (0x04D, .n .vsad),
   (0x04E, .n .vsat),
   (0x04F, .n .vlea),
   (0x050, .n .vand),
   (0x051, .n .vor),
   (0x052, .n .vxor),
   (0x053, .n .vandn),
   (0x054, .n .vshl),
   (0x055, .n .vshr),
   (0x056, .n .vsar),
   (0x057, .n .vrot)]

/-- The format N opcodes of R52 (part 1). -/
def rowsN1 : List (Nat × Form) :=
  [(0x058, .n .vfunnel),
   (0x059, .n .vbfe),
   (0x05A, .n .vbfi),
   (0x05B, .n .vpopc),
   (0x05C, .n .vclz),
   (0x05D, .n .vctz),
   (0x05E, .n .vbrev),
   (0x05F, .n .vpermb),
   (0x060, .n .vcmp),
   (0x061, .n .vsel),
   (0x062, .n .vmov),
   (0x0C0, .n .sadd),
   (0x0C1, .n .ssub),
   (0x0C2, .n .smul),
   (0x0C3, .n .smulh),
   (0x0C4, .n .smin),
   (0x0C5, .n .smax),
   (0x0C6, .n .sand),
   (0x0C7, .n .sor),
   (0x0C8, .n .sxor),
   (0x0C9, .n .sandn),
   (0x0CA, .n .sshl),
   (0x0CB, .n .sshr),
   (0x0CC, .n .ssar),
   (0x0CD, .n .scmp),
   (0x0CE, .n .ssel),
   (0x0CF, .n .smov),
   (0x0D2, .n .spopc),
   (0x0D3, .n .sclz),
   (0x0D4, .n .sctz)]

/-- The format N opcodes of R52 (part 2). -/
def rowsN2 : List (Nat × Form) :=
  [(0x0D5, .n .slane),
   (0x0D6, .n .vput),
   (0x100, .n .vfadd),
   (0x101, .n .vfsub),
   (0x102, .n .vfmul),
   (0x103, .n .vfma),
   (0x104, .n .vfmin),
   (0x105, .n .vfmax),
   (0x106, .n .vfminn),
   (0x107, .n .vfmaxn),
   (0x108, .n .vfdiv),
   (0x109, .n .vfsqrt),
   (0x10A, .n .vfrcp),
   (0x10B, .n .vfrsq),
   (0x10C, .n .vfexp2),
   (0x10D, .n .vflog2),
   (0x10E, .n .vfsin),
   (0x10F, .n .vfcos),
   (0x110, .n .vfcmp),
   (0x111, .n .vfclass),
   (0x112, .n .vfrnd),
   (0x113, .n .vfldexp),
   (0x114, .n .vfabs),
   (0x115, .n .vfneg),
   (0x120, .n .vcvt),
   (0x121, .n .vpk8),
   (0x122, .n .vupk8),
   (0x123, .n .vfdot2),
   (0x124, .n .vfdot4),
   (0x180, .n .vcmul)]

/-- The format N opcodes of R52 (part 3). -/
def rowsN3 : List (Nat × Form) :=
  [(0x181, .n .vcfma),
   (0x182, .n .vcconj),
   (0x183, .n .vcabs2),
   (0x184, .n .vbfly2),
   (0x185, .n .vbfly4),
   (0x186, .n .vtwid),
   (0x190, .n .vshfl),
   (0x191, .n .vbcast),
   (0x192, .n .vreduce),
   (0x193, .n .vscan),
   (0x194, .n .vballot),
   (0x195, .n .vmatch),
   (0x196, .n .vvote),
   (0x308, .n .accown),
   (0x280, .n .cseal),
   (0x281, .n .cwait),
   (0x282, .n .cpoll),
   (0x284, .n .genbump),
   (0x2C0, .n .mjoin),
   (0x2C1, .n .mleave),
   (0x2C2, .n .mwait),
   (0x2C4, .n .barsync),
   (0x2C5, .n .bararv),
   (0x2C6, .n .barbytes),
   (0x2C7, .n .barqry),
   (0x2D4, .n .portqry),
   (0x2D5, .n .patarm),
   (0x2E0, .n .heapput),
   (0x2E1, .n (fun o => .heappop (o.ty == .n32) (if o.ty == .n32 then { o with ty := .i32 } else o))),
   (0x2E2, .n .heapdone)]

/-- The format N opcodes of R52 (part 4). -/
def rowsN4 : List (Nat × Form) :=
  [(0x2E3, .n .gainadd),
   (0x2E4, .n .heapsum),
   (0x2E5, .n .heapdrain),
   (0x300, .n .kwsel),
   (0x301, .n .kwret),
   (0x303, .n .kwswap),
   (0x304, .n .kwinv),
   (0x30C, .n .tlbinv)]

/-- The format N opcodes of R52. -/
def rowsN : List (Nat × Form) := rowsN0 ++ rowsN1 ++ rowsN2 ++ rowsN3 ++ rowsN4

/-- The format I opcodes. -/
def rowsI : List (Nat × Form) :=
  [(0x00B, .i .trap),
   (0x00E, .i .rdsr),
   (0x00F, .i .wrsr),
   (0x010, .i .bkpt),
   (0x063, .i .vmovi),
   (0x064, .i .vaddi),
   (0x0D0, .i .smovi),
   (0x0D1, .i .saddi)]

/-- The format B opcodes. -/
def rowsB : List (Nat × Form) :=
  [(0x001, .b .bra),
   (0x002, .b .bri),
   (0x003, .b .call),
   (0x004, .b .ret),
   (0x005, .b .exit),
   (0x007, .b .loop),
   (0x008, .b .lend)]

/-- The load and presence opcodes, format M. -/
def rowsLd : List (Nat × Form) :=
  [(0x200, .ld .ldspl),
   (0x204, .ld .ldgng),
   (0x208, .ld .ldscr),
   (0x20C, .ld .pset),
   (0x20D, .ld .pclr),
   (0x20E, .ld .pqry),
   (0x210, .ld .lddom),
   (0x218, .ld .ldhst)]

/-- The store opcodes, format M. -/
def rowsSt : List (Nat × Form) :=
  [(0x201, .st .stspl),
   (0x205, .st .stgng),
   (0x209, .st .stscr),
   (0x211, .st .stdom),
   (0x219, .st .sthst)]

/-- FENCE. -/
def rowsFence : List (Nat × Form) :=
  [(0x283, .fence .fence)]

/-- The format A opcodes. -/
def rowsA : List (Nat × Form) :=
  [(0x206, .a .atmgng),
   (0x20A, .a .atmscr),
   (0x20B, .a .redscr),
   (0x212, .a .atmdom),
   (0x213, .a .reddom),
   (0x21A, .a .atmhst)]

/-- The format X opcodes. -/
def rowsX : List (Nat × Form) :=
  [(0x1C0, .x .mgroup),
   (0x1C1, .x .mma),
   (0x1C2, .x .accz),
   (0x1C3, .x .accrd),
   (0x1C4, .x .accwr),
   (0x1C5, .x .accst),
   (0x1C6, .x .accld),
   (0x1C7, .x .accfree),
   (0x309, .x .accspill),
   (0x30A, .x .accfill),
   (0x220, .x .copy),
   (0x285, .x .coll),
   (0x2D0, .x .send),
   (0x2D1, .x .sendmem),
   (0x2D2, .x .jwait),
   (0x2D3, .x (fun o => if o.x == 1#19 then .timepostCancel o else .timepost o)),
   (0x302, .x .kwload),
   (0x30D, .x .wipe)]

/-- The form of an opcode; a reserved opcode has none (R52). -/
def formOf (op : Nat) : Option Form :=
  (rowsN ++ rowsI ++ rowsB ++ rowsLd ++ rowsSt ++ rowsFence ++ rowsA ++ rowsX).lookup op

/-! ### Decoding -/

/-- The cause with which a word alone is refused (R54, checks 1, 3 and 4). -/
inductive DecodeErr
  | illegalOp
  | operandKind
  deriving DecidableEq, Repr

/-- A word read by its format: the instruction, whether a reserved value stood in it (check 3), whether a reserved operand
field stood in it (check 4). -/
structure Parsed where
  instr : Instr
  bad3 : Bool
  bad4 : Bool
  deriving DecidableEq, Repr

def parseN (mk : NOp → Instr) (w : Nat) : Parsed :=
  match unpackBits [4, 2, 4, 11, 11, 11, 9, 1, 1] w with
  | [ty, rnd, g, f2, f1, f0, d, v, e] =>
    let s0 := Src.ofField f0
    let s1 := Src.ofField f1
    let s2 := Src.ofField f2
    ⟨mk { e := e == 1, v := v == 1, d := BitVec.ofNat 9 d, s0 := s0.1, s1 := s1.1, s2 := s2.1,
          g := (Guard.ofCode g).getD .all, rnd := Rnd.ofCode rnd, ty := (Ty.ofCode ty).getD .i32 },
     (Guard.ofCode g).isNone || (Ty.ofCode ty).isNone, s0.2 || s1.2 || s2.2⟩
  | _ => ⟨mk ⟨false, false, 0#9, .vec 0#8, .vec 0#8, .vec 0#8, .all, .rne, .i32⟩, true, true⟩

def parseI (mk : IOp → Instr) (w : Nat) : Parsed :=
  match unpackBits [32, 11, 9, 1, 1] w with
  | [imm, f0, d, v, e] =>
    let s0 := Src.ofField f0
    ⟨mk { e := e == 1, v := v == 1, d := BitVec.ofNat 9 d, s0 := s0.1, imm := BitVec.ofNat 32 imm }, false, s0.2⟩
  | _ => ⟨mk ⟨false, false, 0#9, .vec 0#8, 0#32⟩, true, true⟩

def parseB (mk : BOp → Instr) (w : Nat) : Parsed :=
  match unpackBits [5, 11, 32, 1, 4, 1] w with
  | [m, f0, tgt, r, g, e] =>
    let s0 := Src.ofField f0
    ⟨mk { e := e == 1, g := (Guard.ofCode g).getD .all, tgt := BitVec.ofNat 32 tgt, s0 := s0.1 },
     m != 0 || r != 0 || (Guard.ofCode g).isNone, s0.2⟩
  | _ => ⟨mk ⟨false, .all, 0#32, .vec 0#8⟩, true, true⟩

def parseLd (mk : LdOp → Instr) (w : Nat) : Parsed :=
  match unpackBits [1, 1, 2, 3, 2, 3, 20, 11, 9, 1, 1] w with
  | [sgn, np, cp, scope, ord, size, off, f0, d, v, e] =>
    let s0 := Src.ofField f0
    ⟨mk { e := e == 1, v := v == 1, d := BitVec.ofNat 9 d, s0 := s0.1, off := BitVec.ofNat 20 off, size := BitVec.ofNat 3 size,
          ord := Order.ofCode ord, scope := (Scope.ofCode scope).getD .warp, cp := CachePolicy.ofCode cp,
          sgn := sgn == 1, np := np == 1 }, (Scope.ofCode scope).isNone, s0.2⟩
  | _ => ⟨mk ⟨false, false, 0#9, .vec 0#8, 0#20, 0#3, .rlx, .warp, .normal, false, false⟩, true, true⟩

def parseSt (mk : StOp → Instr) (w : Nat) : Parsed :=
  match unpackBits [2, 2, 3, 2, 3, 20, 11, 10, 1] w with
  | [sx, cp, scope, ord, size, off, f0, fd, e] =>
    let s0 := Src.ofField f0
    let dt := Src.ofData fd
    ⟨mk { e := e == 1, data := dt.1, s0 := s0.1, off := BitVec.ofNat 20 off, size := BitVec.ofNat 3 size,
          ord := Order.ofCode ord, scope := (Scope.ofCode scope).getD .warp, cp := CachePolicy.ofCode cp },
     sx != 0 || (Scope.ofCode scope).isNone, s0.2 || dt.2⟩
  | _ => ⟨mk ⟨false, .vec 0#8, .vec 0#8, 0#20, 0#3, .rlx, .warp, .normal⟩, true, true⟩

def parseFence (mk : FenceOp → Instr) (w : Nat) : Parsed :=
  match unpackBits [1, 1, 2, 3, 2, 3, 20, 11, 9, 1, 1] w with
  | [rf, np, cp, scope, ord, size, off, f0, d, v, e] =>
    ⟨mk { e := e == 1, v := v == 1, d := BitVec.ofNat 9 d, ord := Order.ofCode ord,
          scope := (Scope.ofCode scope).getD .warp, rf := rf == 1 },
     np != 0 || cp != 0 || size != 0 || off != 0 || f0 != 0 || (Scope.ofCode scope).isNone, false⟩
  | _ => ⟨mk ⟨false, false, 0#9, .rlx, .warp, false⟩, true, true⟩

def parseA (mk : AOp → Instr) (w : Nat) : Parsed :=
  match unpackBits [1, 3, 2, 4, 11, 11, 11, 9, 1, 1] w with
  | [r, scope, ord, aop, f2, f1, f0, d, v, e] =>
    let s0 := Src.ofField f0
    let s1 := Src.ofField f1
    let s2 := Src.ofField f2
    ⟨mk { e := e == 1, v := v == 1, d := BitVec.ofNat 9 d, s0 := s0.1, s1 := s1.1, s2 := s2.1, aop := BitVec.ofNat 4 aop,
          ord := Order.ofCode ord, scope := (Scope.ofCode scope).getD .warp },
     r != 0 || (Scope.ofCode scope).isNone, s0.2 || s1.2 || s2.2⟩
  | _ => ⟨mk ⟨false, false, 0#9, .vec 0#8, .vec 0#8, .vec 0#8, 0#4, .rlx, .warp⟩, true, true⟩

def parseX (mk : XOp → Instr) (w : Nat) : Parsed :=
  match unpackBits [19, 1, 6, 6, 11, 9, 1, 1] w with
  | [x, ru, b, a, f0, d, v, e] =>
    let s0 := Src.ofField f0
    ⟨mk { e := e == 1, v := v == 1, d := BitVec.ofNat 9 d, s0 := s0.1, afmt := BitVec.ofNat 6 a, bfmt := BitVec.ofNat 6 b,
          ru := ru == 1, x := BitVec.ofNat 19 x }, false, s0.2⟩
  | _ => ⟨mk ⟨false, false, 0#9, .vec 0#8, 0#6, 0#6, false, 0#19⟩, true, true⟩

def Form.parse (w : Nat) : Form → Parsed
  | .n mk => parseN mk w
  | .i mk => parseI mk w
  | .b mk => parseB mk w
  | .ld mk => parseLd mk w
  | .st mk => parseSt mk w
  | .fence mk => parseFence mk w
  | .a mk => parseA mk w
  | .x mk => parseX mk w

/-- The opcode of a word (R37). -/
def wordOp (w : DWord) : Nat := w.toNat / 2 ^ 54

/-- A word read by its format; none for a reserved opcode. -/
def parse (w : DWord) : Option Parsed := (formOf (wordOp w)).map (Form.parse w.toNat)

/-- Checks 3 and 4 over a word read by its format. -/
def Parsed.check (p : Parsed) : Except DecodeErr Instr :=
  if p.bad3 || !p.instr.ok3 then .error .illegalOp
  else if p.bad4 || !p.instr.ok4 then .error .operandKind
  else .ok p.instr

/-- Decode a native operation word. -/
def decode (w : DWord) : Except DecodeErr Instr :=
  match parse w with
  | none => .error .illegalOp
  | some p => p.check

/-! ### Encoding -/

def b2n (b : Bool) : Nat := if b then 1 else 0

def NOp.fields (o : NOp) : List (Nat × Nat) :=
  [(4, o.ty.code), (2, o.rnd.code), (4, o.g.code), (11, o.s2.field), (11, o.s1.field), (11, o.s0.field), (9, o.d.toNat),
   (1, b2n o.v), (1, b2n o.e)]

def IOp.fields (o : IOp) : List (Nat × Nat) :=
  [(32, o.imm.toNat), (11, o.s0.field), (9, o.d.toNat), (1, b2n o.v), (1, b2n o.e)]

def BOp.fields (o : BOp) : List (Nat × Nat) :=
  [(5, 0), (11, o.s0.field), (32, o.tgt.toNat), (1, 0), (4, o.g.code), (1, b2n o.e)]

def LdOp.fields (o : LdOp) : List (Nat × Nat) :=
  [(1, b2n o.sgn), (1, b2n o.np), (2, o.cp.code), (3, o.scope.code), (2, o.ord.code), (3, o.size.toNat), (20, o.off.toNat),
   (11, o.s0.field), (9, o.d.toNat), (1, b2n o.v), (1, b2n o.e)]

def StOp.fields (o : StOp) : List (Nat × Nat) :=
  [(2, 0), (2, o.cp.code), (3, o.scope.code), (2, o.ord.code), (3, o.size.toNat), (20, o.off.toNat), (11, o.s0.field),
   (10, o.data.dataField), (1, b2n o.e)]

def FenceOp.fields (o : FenceOp) : List (Nat × Nat) :=
  [(1, b2n o.rf), (1, 0), (2, 0), (3, o.scope.code), (2, o.ord.code), (3, 0), (20, 0), (11, 0), (9, o.d.toNat), (1, b2n o.v),
   (1, b2n o.e)]

def AOp.fields (o : AOp) : List (Nat × Nat) :=
  [(1, 0), (3, o.scope.code), (2, o.ord.code), (4, o.aop.toNat), (11, o.s2.field), (11, o.s1.field), (11, o.s0.field),
   (9, o.d.toNat), (1, b2n o.v), (1, b2n o.e)]

def XOp.fields (o : XOp) : List (Nat × Nat) :=
  [(19, o.x.toNat), (1, b2n o.ru), (6, o.bfmt.toNat), (6, o.afmt.toNat), (11, o.s0.field), (9, o.d.toNat), (1, b2n o.v),
   (1, b2n o.e)]

/-- The 54 lower bits of an instruction's word. -/
def Enc.fields : Enc → List (Nat × Nat)
  | .n _ o => o.fields
  | .i _ o => o.fields
  | .b _ o => o.fields
  | .ld _ o => o.fields
  | .st _ o => o.fields
  | .fence _ o => o.fields
  | .a _ o => o.fields
  | .x _ o => o.fields
  | .event => []

/-- The word of a native instruction (R36 to R44). A step that is no instruction word has none; its encoding is the reserved
word of opcode 0x3FF. -/
def encode (i : Instr) : DWord := BitVec.ofNat 64 (packBits (i.enc.fields ++ [(10, i.opcode)]))

/-- The bytes of a word as they lie in memory, little-endian (R36). -/
def wordBytes (w : DWord) : List Byte := (List.range 8).map (fun k => BitVec.ofNat 8 (w.toNat / 2 ^ (8 * k)))

/-- The word of eight bytes in memory order. -/
def wordOfBytes (b : List Byte) : DWord := BitVec.ofNat 64 (b.foldr (fun x acc => x.toNat + 256 * acc) 0)

/-- The host's question: the instruction that the decoder reads from the bits `w` of a row's words, laid out in memory as
the hardware stores them (an operation is one 64-bit word, R36). (DESIGN CHOICE, log 65: safe.) -/
def decodeTableWord (nbits w : Nat) : Option Instr :=
  match decode (wordOfBytes (wordBytes (BitVec.ofNat 64 (w % 2 ^ nbits)))) with
  | .ok i => some i
  | .error _ => none

end Sys2Proof
end

