-- ==== Sys2Proof/Machine/Map.lean ====
section
/-! DEFINITION. Sparse maps in one canonical form: the memory, the register files and every table of the machine. -/
set_option autoImplicit false

namespace Sys2Proof.Machine

/-- A table by number, kept as a list of pairs: keys strictly rise, and no entry equals what an unlisted key reads as
(the type's default). Equal tables are then equal lists. -/
abbrev Map (α : Type) := List (Nat × α)

/-- The entry of key `k`; an unlisted key reads as the default. -/
def Map.get {α : Type} [Inhabited α] : Map α → Nat → α
  | [], _ => default
  | (j, a) :: m, k => if j = k then a else Map.get m k

/-- The table without key `k`. -/
def Map.erase {α : Type} (m : Map α) (k : Nat) : Map α := m.filter (fun p => p.1 != k)

/-- Put an entry at its place by key. -/
def Map.insert {α : Type} : Map α → Nat → α → Map α
  | [], k, a => [(k, a)]
  | (j, b) :: m, k, a => if k < j then (k, a) :: (j, b) :: m else (j, b) :: Map.insert m k a

/-- Set key `k` to `a`; setting the default removes the entry. -/
def Map.set {α : Type} [Inhabited α] [DecidableEq α] (m : Map α) (k : Nat) (a : α) : Map α :=
  if a = default then Map.erase m k else Map.insert (Map.erase m k) k a

/-- Change the entry of key `k`. -/
def Map.upd {α : Type} [Inhabited α] [DecidableEq α] (m : Map α) (k : Nat) (f : α → α) : Map α := m.set k (f (m.get k))

/-- The keys listed. -/
def Map.keys {α : Type} (m : Map α) : List Nat := m.map (fun p => p.1)

/-- Change every listed entry. -/
def Map.mapVals {α : Type} [Inhabited α] [DecidableEq α] (f : Nat → α → α) (m : Map α) : Map α :=
  m.foldr (fun p acc => Map.set acc p.1 (f p.1 p.2)) []

/-- Keep the listed entries that satisfy `p`. -/
def Map.keep {α : Type} (p : Nat → α → Bool) (m : Map α) : Map α := m.filter (fun e => p e.1 e.2)

/-- The first listed entry that satisfies `p`. -/
def Map.find {α : Type} (p : Nat → α → Bool) (m : Map α) : Option (Nat × α) := m.find? (fun e => p e.1 e.2)

/-- Do the keys strictly rise from above `lo`? -/
def Map.rising {α : Type} : Option Nat → Map α → Bool
  | _, [] => true
  | none, (k, _) :: m => Map.rising (some k) m
  | some lo, (k, _) :: m => decide (lo < k) && Map.rising (some k) m

/-- The canonical form: keys strictly rise and no entry is the default. -/
def Map.wf {α : Type} [Inhabited α] [DecidableEq α] (m : Map α) : Bool :=
  Map.rising none m && m.all (fun p => decide (p.2 ≠ default))

end Sys2Proof.Machine
end

