-- ==== Sys2Proof/Machine/State.lean ====
section
/-! DEFINITION. The state of the package as plain data: warps, gangs, launches, contexts, partitions, quadrants, clusters,
sections, memory, engines and the module, with the reset state. Tables are sparse maps by number (Map.lean). -/
set_option autoImplicit false

namespace Sys2Proof.Machine

/-! ### Outcomes that are not a next state -/

/-- Why a step has no next state. -/
inductive Fault
  /-- Raised by `step` alone, in a package whose power is off and that has no queued event: nothing acts (R383). Safe: the
  hardware does nothing there either. -/
  | poweredOff
  deriving DecidableEq, Repr

/-- Why an instruction has no meaning. -/
inductive Refusal
  /-- The dispatcher raises it for a constructor without a meaning. Safe: no claim can be proved of it. -/
  | notModelled (mnemonic : String)
  deriving DecidableEq, Repr

/-! ### Warps (R19, R23, R27, R33, R341 to R350) -/

/-- A poison tag of one register word (R350): a cause, 0 for none, and the address of the access that set it. -/
structure Tag where
  cause : Nat := 0
  addr : Word := 0#32
  deriving DecidableEq, Repr, Inhabited

/-- The states of a scratchpad line (R184). -/
inductive LineState
  | present | absent | failed
  deriving DecidableEq, Repr, Inhabited

/-- The modes of R341. -/
inductive Mode
  | normal | emu | user | sup
  deriving DecidableEq, Repr, Inhabited

/-- The general registers with their poison tags: vector word of register r, lane l at key 32 r + l. -/
structure Regs where
  vec : Map Word := []
  scal : Map Word := []
  vtag : Map Tag := []
  stag : Map Tag := []
  deriving DecidableEq, Repr, Inhabited

/-- The special registers of one warp (R33). -/
structure Special where
  steps : Nat := 0
  stepsHi : Word := 0#32
  phcNs : Word := 0#32
  phcSec : Word := 0#32
  phcSech : Word := 0#32
  flags : Word := 0#32
  fpctl : Word := 0#32
  kwslot : Nat := 0
  spillp : Word := 0#32
  vpc : List Word := []
  tcause : Word := 0#32
  tpc : Word := 0#32
  taddr : Word := 0#32
  tmask : Word := 0#32
  tinfo : Word := 0#32
  emuvec : Word := 0#32
  trapvec : Word := 0#32
  spillbase : Word := 0#32
  spillsize : Word := 0#32
  deriving DecidableEq, Repr, Inhabited

/-- What a whole warp waits for, out of the ready set (R283). -/
inductive Wait
  | ready
  /-- Parked on a scratchpad line, by its location / 128 (R185). -/
  | line (key : Nat)
  /-- Parked on the check of a code page of its context (R78). -/
  | code (ctx page : Nat)
  /-- Rejected by a full table or queue; `age` is the clock of the first rejection (R190). -/
  | reject (age : Nat)
  /-- Parked in CWAIT on a batch (R203). -/
  | batch (b : Nat)
  /-- Waiting in BARSYNC: barrier, the lanes that arrived, the phase, the end of the BARSYNC's step (R271, R272). -/
  | barrier (b : Nat) (lanes : Mask) (phase stepEnd : Word)
  /-- Waiting in JWAIT, registered with pattern `pat` for block D; the end of the JWAIT's step (R313). -/
  | jwait (pat d : Nat) (lanes : Mask) (stepEnd : Word)
  /-- Sleeping until a deadline (R263). -/
  | sleep (sec ns : Nat)
  /-- A fence of its closed step is not yet satisfied (R213). -/
  | fence
  /-- Parked in SEND or SENDMEM on a full port (R309, R311). -/
  | sender (port : Nat)
  /-- Parked in HEAPPOP on a heap (R328). -/
  | popper (heap : Nat)
  /-- Released while saved, halted or in the supervisor: a trap to take when the wait is entered again (R274, R313). -/
  | trap (cause : Nat) (tpc taddr tinfo : Word) (tmask : Mask)
  deriving DecidableEq, Repr, Inhabited

/-- What user-class entry saves (R343). -/
structure RStateU where
  mode : Mode := .normal
  kwslot : Nat := 0
  held : Mask := 0#32
  deriving DecidableEq, Repr, Inhabited

/-- What supervisor-class entry saves (R343). -/
structure RStateS where
  tcause : Word := 0#32
  tpc : Word := 0#32
  taddr : Word := 0#32
  tmask : Word := 0#32
  tinfo : Word := 0#32
  mode : Mode := .normal
  kwslot : Nat := 0
  held : Mask := 0#32
  wait : Wait := .ready
  wsets : Map Mask := []
  deriving DecidableEq, Repr, Inhabited

/-- A condition raised by an operation of the step in progress (R103, R104): the operation's index, the bit of FPCTL, the
lanes that raised it. -/
structure Cond where
  op : Nat := 0
  bit : Nat := 0
  lanes : Mask := 0#32
  deriving DecidableEq, Repr, Inhabited

/-- One buffered effect of the step in progress, applied at its commit in operation order (R26). -/
inductive Buf
  /-- The lanes `m` of vector register `r`. -/
  | vec (r : Nat) (m : Mask) (v : Lanes)
  | scal (r : Nat) (x : Word)
  /-- A mask register of which not every present lane's bit is written: its tag stays (R350). -/
  | mscal (r : Nat) (x : Word)
  /-- Set or clear the bits `m` of mask register `k` (MJOIN, MLEAVE, mask merges of R107). -/
  | maskMerge (k : Nat) (m : Mask) (v : Mask)
  /-- A special register by number (R266). -/
  | sr (n : Nat) (x : Word)
  | snapSteps (hi : Word)
  | snapPhc (ns sec sech : Word)
  | exit (m : Mask)
  | mwait (k : Nat) (m : Mask)
  | barWait (b : Nat) (m : Mask) (phase : Word)
  | barBroken (b : Nat) (m : Mask) (reason : Nat) (phase : Word)
  | jwait (pat d : Nat) (m : Mask)
  | sleep (sec ns : Nat)
  | yield
  | softTrap (imm : Word) (m : Mask)
  | tret
  | kwsel (slot : Nat)
  | kwret (slot : Nat)
  /-- A fence; every earlier event of its warp has a number below `before`. -/
  | fence (ord : Order) (scope : Scope) (rf : Bool) (d : Option Nat) (before : Nat)
  | genbump
  | seal (b : Nat)
  | batchDone (b : Nat)
  | mgroup (q : Nat)
  /-- The destination of reply `id` is held by the scoreboard from the commit (R31). -/
  | reply (id : Nat)
  deriving DecidableEq, Repr

/-- The step in progress (R24 to R30). `nexts` is next(l) of R27. -/
structure StepCtx where
  started : Bool := false
  first : Word := 0#32
  len : Nat := 0
  idx : Nat := 0
  ops : List Instr := []
  latches : List (Option Lanes) := []
  /-- Beside each latch, the reply whose value it holds, if it is a load's or an atomic's (R350). -/
  lrep : List (Option Nat) := []
  buf : List Buf := []
  conds : List Cond := []
  issue : Mask := 0#32
  nexts : List Word := []
  performed : Bool := false
  closed : Bool := false
  /-- The guest-decode layout of R64 of the step, OPIDX zero, and bits [31:0] of its guest word; 0 under slot 0. -/
  ginfo : Word := 0#32
  gword : Word := 0#32
  deriving DecidableEq, Repr, Inhabited

/-- The bytes of one lane of a load that lie within one 16-byte unit: a single access (R180). `off` is the first one's place in the
lane's data. -/
structure LateUnit where
  lane : Nat
  off : Nat
  locs : List Nat
  deriving DecidableEq, Repr

/-- A reply due to a warp (R31): its destination registers, the lanes still due, the words of each register, and what a lost
or failed reply tags (R350). `acq` and `bump` tell that the load is an acquire: its values stand, and the L1 is bumped, before any later
event of the warp (R225, R230). -/
structure Reply where
  vec : Bool := true
  base : Nat := 0
  n : Nat := 0
  lanes : Mask := 0#32
  vals : List Lanes := []
  /-- The value has been formed; the reply may be written. -/
  have_ : Bool := false
  /-- The step that issued it has committed: the destination is held. -/
  held : Bool := false
  host : Bool := false
  /-- An atomic's on memory that its gang does not own: a replay gang logs it as it is written (R374). -/
  atomic : Bool := false
  /-- Domain address by lane, for a domain access. -/
  ranks : List (Nat × Nat) := []
  addrs : Lanes := []
  flags : Word := 0#32
  /-- Clock at which it was issued (R174). -/
  at_ : Nat := 0
  /-- The cause with which each lane fails, 0 for none (R174, R212, R255). -/
  fails : Map Nat := []
  /-- A heap unit's: it is written into a saved image too (R353). -/
  engine : Bool := false
  /-- Miss-status entries of its cluster held until it is written (R189). -/
  entries : Nat := 0
  /-- Accesses of a relaxed load that nothing has ordered yet: each may still take a later value (R228). `size` and `sgn` are the
  load's, `cached` says that it reads through the L1. -/
  late : List LateUnit := []
  size : Nat := 4
  sgn : Bool := false
  cached : Bool := false
  acq : Bool := false
  bump : Bool := false
  deriving DecidableEq, Repr, Inhabited

/-- One copy in a warp's unsealed set or batches (R203): complete, its flags, cause and sequence number. -/
structure CopyRef where
  copy : Nat := 0
  done : Bool := false
  flags : Nat := 0
  cause : Nat := 0
  seq : Word := 0#32
  deriving DecidableEq, Repr, Inhabited

/-- The debugger's hold on one warp (R364 to R370): stopped, and its stop record. -/
structure StopRec where
  valid : Bool := false
  cause : Nat := 0
  tpc : Word := 0#32
  tmask : Mask := 0#32
  taddr : Word := 0#32
  tinfo : Word := 0#32
  skid : Nat := 0
  sint : Nat := 0
  scount : Nat := 0
  deriving DecidableEq, Repr, Inhabited

/-- A warp (R19). -/
structure Warp where
  live : Bool := false
  gang : Nat := 0
  wid : Nat := 0
  role : Nat := 0
  /-- The physical quadrant it holds a slot of; kept while saved as the last one. -/
  quad : Nat := 0
  present : Mask := 0#32
  exited : Mask := 0#32
  held : Mask := 0#32
  mode : Mode := .normal
  vbudget : Nat := 0
  sbudget : Nat := 0
  regs : Regs := {}
  sp : Special := {}
  rsU : RStateU := {}
  rsS : RStateS := {}
  wsets : Map Mask := []
  wait : Wait := .ready
  step : StepCtx := {}
  replies : Map Reply := []
  q : Nat := 1
  unsealed : List CopyRef := []
  batches : Map (List CopyRef) := []
  /-- The slot to whose old generation it is bound, 0 for none (R79). -/
  bound : Nat := 0
  /-- It was placed under a slot that was empty or another context's (R73). -/
  misplaced : Bool := false
  /-- Code pages whose CODE_INTEGRITY has gone to its supervisor, which has not returned (R78). -/
  badPages : List Nat := []
  /-- The first rejection of the step that is being retried (R190), and what was full: 1 the miss-status entries, 2 the store buffer,
  3 an engine's queue; 0 for no rejection. -/
  age : Option Nat := none
  rejKind : Nat := 0
  /-- The port whose parked-sender list, or the heap whose popper list, still holds the warp while its step restarts (R309,
  R328). -/
  tryPort : Option Nat := none
  /-- It parked there because the port was not resident (R295). -/
  tryAway : Bool := false
  tryHeap : Option Nat := none
  spillSlot : Nat := 0
  /-- Warps, each with a number: the events of that warp numbered below it go before this warp's next release (R227). -/
  owes : List (Nat × Nat) := []
  /-- The lines that have woken it since its step first began, each with the state that did (R185, R233). -/
  woken : List (Nat × LineState) := []
  /-- Order of its last step start, 0 for never issued (R284). -/
  lastStart : Nat := 0
  admitted : Nat := 0
  /-- Consecutive unthrottled clocks for which it has been ready without starting a step (R284). -/
  waited : Nat := 0
  /-- A step start of a reserved launch goes before all others (R288). -/
  urgent : Bool := false
  stopRec : StopRec := {}
  stepping : Bool := false
  barrierArrived : Bool := false
  deriving DecidableEq, Repr, Inhabited

/-! ### Gangs and launches (R17, R269, R275 to R289) -/

/-- A named barrier (R269). -/
structure Barrier where
  count : Nat := 0
  arrived : Nat := 0
  balance : Int := 0
  phase : Word := 0#32
  broken : Bool := false
  /-- A break asked for while the gang is halted: its reason, 0 for none (R370). -/
  pend : Nat := 0
  /-- Bytes that arrived in the middle of a step of a replay gang (R373). -/
  owed : Nat := 0
  deriving DecidableEq, Repr, Inhabited

/-- One access of a step of a replay gang: its lane, space code and kind bit of R362, the lane's address, and the bytes. -/
structure StepAcc where
  lane : Nat
  space : Nat
  bit : Nat
  ea : Nat
  va : Nat
  len : Nat
  deriving DecidableEq, Repr, Inhabited

/-- Where a gang stands: resident, being stopped for a save, saved, or retired. -/
inductive GangPlace
  | absent | resident | stopping | saved | retired
  deriving DecidableEq, Repr, Inhabited

/-- A gang (R17). `stop` holds its warps at their boundaries; `halted` is a debug stop (R364). -/
structure Gang where
  place : GangPlace := .absent
  launch : Nat := 0
  gangId : Nat := 0
  part : Nat := 0
  ctx : Nat := 0
  warps : List Nat := []
  cluster : Nat := 0
  coreBase : Nat := 0
  cores : Nat := 1
  /-- Where each gang-relative quadrant lies in its core group (R146). -/
  assign : List Nat := []
  gangSize : Nat := 0
  barriers : Map Barrier := []
  /-- Clock counts of the watchdog (R289). -/
  wdog : Nat := 0
  stop : Bool := false
  /-- The watchdog has expired, and WATCHDOG waits for the last step boundary (R289). -/
  wdPend : Bool := false
  /-- The warp that handles WATCHDOG while the others stand stopped (R358). -/
  wdWarp : Option Nat := none
  halted : Bool := false
  /-- The clock at which its last warp stopped for a save (R352), and the cause that the saved image records (R351). -/
  stopClock : Nat := 0
  saveCause : Nat := 0
  /-- The supervisor's pages that hold its saved image (R398). -/
  image : List Nat := []
  admitted : Nat := 0
  /-- Does it hold one of the reserved places of its pattern (R288)? -/
  reserved : Bool := false
  /-- Checkpoint interval and steps committed in it (R372). -/
  interval : Nat := 0
  count : Nat := 0
  /-- Bytes of the replay log of the interval (R374). -/
  logBytes : Nat := 0
  lastCommit : Option Nat := none
  /-- The warp of a replay gang that runs its step until it commits or parks (R373). -/
  turnOf : Option Nat := none
  /-- What the step in progress of a replay gang accesses. -/
  accs : List StepAcc := []
  /-- Re-executing since a STOPAT: the point at which it first halted (R375). -/
  rerun : Option (Nat × Nat) := none
  /-- The point of a STOPAT that waits for a performed step to commit. -/
  pendStop : Option (Nat × Nat) := none
  deriving DecidableEq, Repr, Inhabited

/-- Where a gang stands (R146, R279): the first core of its group, and the place in the group of each gang-relative quadrant, its own
number where none is listed. -/
structure Place where
  core : Nat := 0
  assign : List Nat := []
  deriving DecidableEq, Repr, Inhabited

/-- A reserved gang place (R288): where it stands, and its warps' spill slots. -/
structure RsvPlace where
  place : Place := {}
  slots : List Nat := []
  deriving DecidableEq, Repr, Inhabited

/-- A launch (R16, R275, R277): its descriptor's fields as they were when it fired. -/
structure Launch where
  live : Bool := false
  part : Nat := 0
  ctx : Nat := 0
  desc : Nat := 0
  words : List Word := []
  gangs : Nat := 0
  prio : Nat := 0
  cls : Nat := 0
  firing : Nat := 0
  seq : Word := 0#32
  msgs : List Byte := []
  consts : Map Word := []
  pat : Nat := 0
  rsv : Bool := false
  /-- The reserved places that it holds by GANGID, and whether each goes back to the partition as its gang retires (R288). -/
  places : List (Option RsvPlace) := []
  giveBack : Bool := false
  replay : Bool := false
  /-- The PHC deadline that triggered it, in units of 2^-16 ns (R286). -/
  trigger : Option Nat := none
  started : Nat := 0
  /-- Its pattern was not complete at the deadline that triggered it; its lateness has been recorded (R287). -/
  late : Bool := false
  lateDone : Bool := false
  /-- A debug stop of the whole launch has marked its held gangs halted (R364). -/
  haltNew : Bool := false
  /-- Its rank and ensemble (R252). -/
  ens : Option Nat := none
  rank : Nat := 0
  deriving DecidableEq, Repr, Inhabited

/-! ### Records and logs (R348, R357, R359) -/

/-- One entry of a record ring (R348). -/
structure Record where
  seq : Word := 0#32
  cause : Nat := 0
  drops : Nat := 0
  taddr : Word := 0#32
  tinfo : Word := 0#32
  gang : Word := 0#32
  warp : Word := 0#32
  psec : Word := 0#32
  pns : Word := 0#32
  deriving DecidableEq, Repr, Inhabited

/-! ### Ports, patterns, timers (R291 to R315) -/

/-- A message (R296): header fields and six payload words. -/
structure Message where
  seq : Word := 0#32
  sender : Nat := 0
  kind : Nat := 0
  mflags : Nat := 0
  payload : List Word := []
  /-- The deadline of the timer entry that posted it, in 2^-16 ns of the PHC (R286). -/
  deadline : Option Nat := none
  /-- The PHC when it reached its port. -/
  arrived : Nat := 0
  deriving DecidableEq, Repr, Inhabited

/-- A port (R293, R294, R298, R309): COUNT is the number of messages queued; `rsvd` are slots reserved for a sender's retry. -/
structure Port where
  valid : Bool := false
  quar : Bool := false
  hostw : Bool := false
  sigen : Bool := false
  syssc : Bool := false
  pin : Bool := false
  home : Nat := 0
  depth : Nat := 0
  lost : Nat := 0
  wake : Word := 0#32
  wakeSeq : Word := 0#32
  wakeSender : Nat := 0
  /-- The PHC when the wake register became nonzero. -/
  wakeAt : Nat := 0
  msgs : List Message := []
  resident : Bool := false
  /-- Slots held for SENDMEMs that have performed and not yet enqueued (R312). -/
  heldSlots : Nat := 0
  parked : List Nat := []
  /-- Arrivals held in the miss buffer, with the source's KIND in each (R295). -/
  buffered : List Message := []
  lastUsed : Nat := 0
  deriving DecidableEq, Repr, Inhabited

/-- A pattern (R301, R304): its eight words as installed, and what the tumbler holds of it. `places` is the standing reservation of
R288, one place for each GANGID; `taken` is the launch that has taken it and has not retired. -/
structure Pattern where
  words : List Word := []
  armed : Bool := false
  once : Bool := false
  passed : Nat := 0
  dueAt : Nat := 0
  waiters : List Nat := []
  rsv : Bool := false
  places : List RsvPlace := []
  taken : Option Nat := none
  /-- Disarmed by its last firing, the reservation kept for launches that have yet to take it (R288). -/
  closing : Bool := false
  /-- The PHC at its arming. -/
  armedAt : Nat := 0
  deriving DecidableEq, Repr, Inhabited

/-- A timer entry (R314). -/
structure Timer where
  live : Bool := false
  ctx : Nat := 0
  port : Nat := 0
  sec : Nat := 0
  ns : Nat := 0
  period : Nat := 0
  payload : List Word := []
  /-- Its deadline has passed, and its posting is held (R295, R381). -/
  due : Bool := false
  deriving DecidableEq, Repr, Inhabited

/-! ### Gain heaps (R318 to R331) -/

/-- An entry of a heap. -/
inductive HeapEntry
  | absent
  | queued (gain : Word)
  | flight (held pend : Word) (gang : Nat)
  deriving DecidableEq, Repr, Inhabited

/-- A heap object (R319, R320). -/
structure Heap where
  valid : Bool := false
  termd : Bool := true
  inexact : Bool := false
  clamped : Bool := false
  home : Nat := 0
  baddone : Nat := 0
  tport : Nat := 0
  thresh : Word := 0#32
  tol : Word := 0#32
  cap : Nat := 0
  entries : Map HeapEntry := []
  resid : Nat := 0
  /-- Parked poppers, oldest first, each until its pop acts: an entry that is queued is reserved for the oldest of them (R328). -/
  parked : List Nat := []
  deriving DecidableEq, Repr, Inhabited

/-- The kinds of operation that reach a heap unit (R326, R327); `retire` is the HEAPDONE of every entry that a retired gang holds in
flight (R330). -/
inductive HeapOpKind
  | put | pop | done | add | sum | drain | retire
  deriving DecidableEq, Repr

/-- One instruction's operations in a heap unit's queue: its lanes with id and gain or delta (R321). `behind` are the parked poppers that
held or awaited a reservation when it performed (R328). -/
structure HeapOp where
  kind : HeapOpKind
  warp : Nat
  gang : Nat
  heap : Nat
  lanes : List (Nat × Nat × Word)
  reply : Nat
  behind : List Nat
  /-- HEAPPOP.w. -/
  wt : Bool := false
  deriving DecidableEq, Repr

/-! ### Debug (R360 to R375) -/

/-- A watchpoint's two words (R362). -/
structure Watch where
  addr : DWord := 0#64
  ctl : Word := 0#32
  deriving DecidableEq, Repr, Inhabited

/-- A code breakpoint (R362). -/
structure Break where
  enabled : Bool := false
  addr : Word := 0#32
  slot : Nat := 0
  deriving DecidableEq, Repr, Inhabited

/-- An entry of the debug event ring (R365). -/
structure DbgEvent where
  seq : Word := 0#32
  drops : Nat := 0
  evt : Nat := 0
  eaddr : Word := 0#32
  egang : Word := 0#32
  eint : Word := 0#32
  ecount : Word := 0#32
  eseq : Word := 0#32
  deriving DecidableEq, Repr, Inhabited

/-- A lane-cycle bin (R377): slot, range and five counters in the order active, predicated off, masked, absent, idle. -/
structure Bin where
  slot : Nat := 0
  base : Word := 0#32
  limit : Word := 0#32
  active : Nat := 0
  predOff : Nat := 0
  masked : Nat := 0
  absent : Nat := 0
  idle : Nat := 0
  deriving DecidableEq, Repr, Inhabited

/-- The debug side of a context. -/
structure Debug where
  session : Option Nat := none
  dctl : Word := 0x00001410#32
  watches : Map Watch := []
  breaks : Map Break := []
  ring : List DbgEvent := []
  drops : Nat := 0
  edits : Nat := 0
  bins : Map Bin := []
  /-- What the control cores returned last: an error, a stop record of eight words, the 80 lane-cycle counters. -/
  error : Bool := false
  stop : List Word := []
  counters : List Nat := []
  /-- What the debugger read last of a halted gang (R368). -/
  read : List Word := []
  deriving DecidableEq, Repr, Inhabited

/-! ### Translation buffers, engine jobs, the host's functions, the fabric, the module -/

/-- A translation buffer entry (R405): the leaf and the bytes that it maps; size 0 is no entry. -/
structure TlbEntry where
  leaf : DWord := 0#64
  size : Nat := 0
  deriving DecidableEq, Repr, Inhabited

/-- The kinds of supervisor operation that write a status when they complete (R82, R407, R410). -/
inductive JobKind
  | keyway | tlbinv | wipe
  deriving DecidableEq, Repr, Inhabited

/-- A supervisor operation that has performed and whose status is due. `ranges` are the locations and lengths that a WIPE clears;
`waits` are the copies, collectives, sends, memory operations and host stores under way when a TLBINV performed. -/
structure Job where
  live : Bool := false
  kind : JobKind := .keyway
  warp : Nat := 0
  gang : Nat := 0
  ck : Nat := 0
  reply : Nat := 0
  val : Word := 0#32
  ranges : List (Nat × Nat) := []
  /-- A WIPE's bytes have been cleared, ahead of its completion. -/
  wiped : Bool := false
  waits : List Nat := []
  deriving DecidableEq, Repr, Inhabited

/-- A PCIe function (R242, R246, R247, R249, R393): its counters, the context creation record, the status registers, the
scratchpad aperture's slots by number (one more than the page's PPA / 65536), the completion timeout in ns, and the last completion it sent for a
read or an AtomicOp: Unsupported Request or the data. -/
structure HostFn where
  pwlost : Nat := 0
  pwbad : Nat := 0
  apdrop : Nat := 0
  creation : Map Byte := []
  ctxstat : Word := 0#32
  ctxreason : Word := 0#32
  slots : Map Nat := []
  timeout : Nat := 50000
  unsupported : Bool := false
  data : List Byte := []
  aer : Nat := 0
  deriving DecidableEq, Repr, Inhabited

/-- A fabric link (R251): failures of the flit in hand, its first and those of its replays in succession, whether it retrains, whether
it is marked down. -/
structure Link where
  fails : Nat := 0
  retraining : Bool := false
  down : Bool := false
  deriving DecidableEq, Repr, Inhabited

/-- A gang as a dump lists it: the name of its point and its saved image (R351, R372). -/
structure DumpGang where
  launch : Nat
  gangId : Nat
  interval : Nat
  count : Nat
  /-- The cause that the saved image records. -/
  cause : Nat
  warps : List Warp
  barriers : List Barrier
  mem : List (Nat × Byte)
  deriving DecidableEq, Repr

/-- What the management controller or the SPDM responder answers. -/
inductive McReply
  /-- Bring-up stopped at this step, or completed (0). -/
  | bringUp (failed : Nat)
  | refused
  | accepted
  | holdover
  | counters (part : Nat) (corrected : List (Nat × Nat)) (log : List Record)
  | dump (part : Nat) (complete : Bool) (start stop : Nat) (gangs : List DumpGang) (rings : List (List Record)) (log : List Record) (queue : List Nat)
    (pages : List (Nat × List (Nat × Byte)))
  | spdm (code : Nat) (body : List Byte)
  | pulse (sec : Nat)
  deriving DecidableEq, Repr

/-- The module (R378 to R385, R413, R417): what survives a reset of the package. -/
structure Module where
  life : LifeCycle := .blank
  vendorRoot : BitVec 384 := 0#384
  operatorRoot : Option (BitVec 384) := none
  serial : Nat := 0
  /-- The device identity has been generated and not destroyed. -/
  identity : Bool := false
  /-- Code keys by 16 p + index. -/
  codeKeys : Map (Option CodeKey) := []
  bankA : List Byte := []
  bankB : List Byte := []
  /-- The bank whose image runs: 0 none, 1 A, 2 B. -/
  bank : Nat := 0
  /-- Bring-up has completed and context creation is open. -/
  created : Bool := false
  /-- The PCIe link failed to train (R378). -/
  pcieDown : Bool := false
  /-- The stored partition map (base section, sections), by partition. -/
  partMap : List (Nat × Nat) := []
  /-- The PHC source is PTM alone; every source is lost; the last time of day of PTM, with the clock at which it came. -/
  ptmOnly : Bool := false
  holdover : Bool := false
  tod : Option (Nat × Nat) := none
  /-- The PHC second of the last 1PPS output pulse. -/
  pulsed : Option Nat := none
  /-- What the PHC still slews by, in units of 2^-16 ns, and the part of a unit of slewing that has not been applied. -/
  slew : Int := 0
  slewFrac : Nat := 0
  capW : Nat := 2600
  shares : Map Nat := []
  /-- The input or the temperature is out of range since this clock (R383). -/
  badSince : Option Nat := none
  spdmAlg : Bool := false
  /-- The port on which the command in hand came, and the session or sender there (R384). -/
  via : McPort := .net false 0#384
  /-- Answers on the management controller's ports, oldest first. -/
  out : List McReply := []
  deriving DecidableEq, Repr, Inhabited

/-- A dump in progress (R385): the gangs to resume, whether a reset follows, the pages that it names, by PPA / 65536, the PHC at its start,
its clock, and a reset trigger that waits for its end. -/
structure DumpJob where
  gangs : List Nat := []
  reset : Bool := false
  pages : List Nat := []
  start : Nat := 0
  clock : Nat := 0
  trigger : Option Nat := none
  deriving DecidableEq, Repr, Inhabited

/-! ### Contexts, partitions, quadrants, clusters, sections -/

/-- A state of a code page (R78). -/
inductive CodePage
  | unverified | verified | failed
  deriving DecidableEq, Repr, Inhabited

/-- A context (R393). `roots` holds, by window code (R402), one more than the partition-physical address of the top table. -/
structure Ctx where
  live : Bool := false
  roots : Map Nat := []
  supEntry : Word := 0#32
  /-- Lengths of its code objects 0 to 7, and of the supervisor object at 15 (R394). -/
  objLen : Map Nat := []
  codePages : Map CodePage := []
  /-- SHA-384 of each code page by code-window page, from the manifests (R77). -/
  digests : Map (BitVec 384) := []
  ring : List Record := []
  drops : Nat := 0
  dbg : Debug := {}
  /-- The user-mailbox bit of R426. -/
  mboxUser : Bool := false
  /-- Its supervisor returned from CODE_INTEGRITY without reloading the page: it is to be killed (R78). -/
  unreloaded : Bool := false
  squota : Nat := 0
  hquota : Nat := 0
  spillUsed : Map Bool := []
  /-- Pages of its page tables and object tables, which SUP owns (R393, R398). -/
  tabPages : List Nat := []
  tmpls : Map (List Word) := []
  descs : Map (List Word) := []
  deriving DecidableEq, Repr, Inhabited

/-- A keyway slot of a partition (R61, R79): the image in use with its owner and generation, and the old image while it is
bound. -/
structure KeySlot where
  valid : Bool := false
  owner : Nat := 0
  base : Word := 0#32
  image : List Byte := []
  oldValid : Bool := false
  oldBase : Word := 0#32
  oldImage : List Byte := []
  deriving DecidableEq, Repr, Inhabited

/-- An entry of the control cores' mailbox (R265). -/
structure MailEntry where
  ctx : Nat := 0
  warp : Nat := 0
  x : Word := 0#32
  seq : Word := 0#32
  deriving DecidableEq, Repr, Inhabited

/-- A partition (R395, R396). -/
structure Partition where
  live : Bool := false
  base : Nat := 0
  nsec : Nat := 0
  seqctr : Word := 0#32
  firing : Nat := 0
  /-- The PHC at the last clock at which its launch queue was full (R287). -/
  fullAt : Nat := 0
  /-- The held launch for which gangs are being pre-empted: the room goes to it (R278, R281). -/
  madeFor : Option Nat := none
  log : List Record := []
  slots : Map KeySlot := []
  /-- Its supervisor object (R392): where it lies (partition-physical), its length, its pages' digests, whether its key holds DBG. -/
  supPpa : Nat := 0
  supLen : Nat := 0
  supDigests : List (BitVec 384) := []
  supDbg : Bool := false
  /-- Clocks since its watchdog was restarted (R290). -/
  pwdog : Nat := 0
  /-- Withheld issue slots of 16 (R382). -/
  withheld : Nat := 0
  /-- The window, numbered from 1, for which its power was last measured (R382). -/
  window : Nat := 0
  dump : Option DumpJob := none
  /-- Corrected errors by structure code (R355). -/
  corrected : Map Nat := []
  timers : Map Timer := []
  /-- Entries posted to the control cores' mailbox and not yet taken (R265). -/
  mailbox : List MailEntry := []
  deriving DecidableEq, Repr, Inhabited

/-- The tag of a decoded-operation cache entry (R74): context, slot, generation, guest address. -/
structure DTag where
  ck : Nat
  slot : Nat
  gen : Nat
  addr : Word
  deriving DecidableEq, Repr

/-- One operation word as it reaches the checks: `badSub` is a substitution that does not fit. -/
structure RawOp where
  word : DWord
  badSub : Bool := false
  deriving DecidableEq, Repr

/-- A step as it reaches the checks: its words, its length in bytes, the words of R55 and R64 that a refusal shows, and whether its
guard field does not fit. -/
structure RawStep where
  ops : List RawOp := []
  len : Nat := 0
  gword : Word := 0#32
  ginfo : Word := 0#32
  guardBad : Bool := false
  deriving DecidableEq, Repr, Inhabited

/-- An entry of the decoded-operation cache (R74). -/
structure DEntry where
  tag : DTag
  step : RawStep
  deriving DecidableEq, Repr

/-- A loop-buffer capture (R76): the body's slot, generation, start and end, the warps that run it from the buffer, and the steps
captured so far by address. -/
structure LoopBuf where
  valid : Bool := false
  ck : Nat := 0
  slot : Nat := 0
  gen : Nat := 0
  start : Word := 0#32
  last : Word := 0#32
  users : List Nat := []
  steps : Map RawStep := []
  deriving DecidableEq, Repr, Inhabited

/-- Bytes that a matrix unit reads between the perform and the completion of an operation (R158), by access, as read so far. Each
unit in `late` may still be read anew; a later store of warp `warp` to one of its lines ends that. The members of one MMA share the
number `op`. -/
structure MatSrc where
  warp : Nat := 0
  op : Nat := 0
  data : List (List Byte) := []
  late : List LateUnit := []
  deriving DecidableEq, Repr, Inhabited

/-- An MMA as its member's queue holds it (R150 to R155): its operands as they stood when it performed. `a` are the A registers in
order, `b` the rows of the member's column block, `sa` the A-scale registers, `sb` the B-scale register. -/
structure MmaJob where
  af : BitVec 6 := 0#6
  bf : BitVec 6 := 0#6
  acc : Bool := false
  rb : Nat := 0
  kb : Nat := 0
  seg0 : Nat := 0
  rows : Mask := 0#32
  a : List Lanes := []
  b : MatSrc := {}
  scl : Bool := false
  sba : Nat := 0
  sbb : Nat := 0
  sa : List Lanes := []
  sb : Lanes := []
  deriving DecidableEq, Repr, Inhabited

/-- An entry of a matrix queue (R157). -/
inductive MatOp
  /-- ACCZ and ACCFREE: every element of the segments becomes +0, the live bits as given (R162). -/
  | fill (segs : Nat) (live : Bool)
  /-- ACCWR: rows of FP32e codes (R163). -/
  | put (seg : Nat) (rows : Mask) (codes : List (List Nat))
  /-- ACCLD: rows in a format, the accesses of `src` being those of the rows in increasing order (R164). -/
  | load (seg : Nat) (rows : Mask) (fmt : BitVec 6) (src : MatSrc)
  | mma (j : MmaJob)
  deriving DecidableEq, Repr

/-- A quadrant's accumulator and matrix unit (R19, R33, R157, R159). Row r of segment k is the FP32e codes at 32 k + r; a row
of +0 is not listed. -/
structure Quad where
  owner : Option Nat := none
  live : Nat := 0
  rows : Map (List Nat) := []
  segPoison : Nat := 0
  queue : List MatOp := []
  /-- An operation has issued in this clock; the last issue's context, slot and address (R283, R376). -/
  issued : Bool := false
  lastCk : Option Nat := none
  lastSlot : Nat := 0
  lastPc : Word := 0#32
  loopBuf : LoopBuf := {}
  deriving DecidableEq, Repr, Inhabited

/-- A line held by an L1 data cache: the generation it was filled under, its bytes, its presence state as recorded at the
fill (R230, R233). -/
structure L1Line where
  held : Bool := false
  gen : Nat := 0
  bytes : List Byte := []
  deriving DecidableEq, Repr, Inhabited

/-- A cluster (R14): its L1 generation (R230), the lines of its L1 data cache, and those of its L1 instruction cache, line `n` of the code
window of context k at 2^25 k + n (R411). -/
structure Cluster where
  gen : Nat := 0
  l1 : Map L1Line := []
  icode : Map (List Byte) := []
  /-- The decoded-operation cache, most recently used first (R74). -/
  dcache : List DEntry := []
  deriving DecidableEq, Repr, Inhabited

/-! ### Memory operations on their way (R207, R211, R248) -/

/-- One lane of an atomic or reduction: lane, location, data, compare value. -/
structure LaneOp where
  lane : Nat
  loc : Nat
  data : Nat
  cmp : Nat
  deriving DecidableEq, Repr

/-- An atomic or reduction waiting in the write queue of its memory port (R208): `reply` is the warp's reply for an atomic. -/
structure PortOp where
  live : Bool := false
  warp : Nat := 0
  gang : Nat := 0
  ck : Nat := 0
  cluster : Nat := 0
  aop : BitVec 4 := 0#4
  /-- 1 gang memory, 2 scratchpad, 3 domain, 4 host. -/
  space : Nat := 2
  lanes : List LaneOp := []
  reply : Option Nat := none
  ranks : List (Nat × Nat) := []
  /-- An acquire at part scope or wider, or any acquire: later operations of the warp wait for it (R225, R230). -/
  acq : Bool := false
  bump : Bool := false
  /-- The flags of the lanes that have performed. -/
  flags : Nat := 0
  /-- The operation's index in its step. -/
  idx : Nat := 0
  deriving DecidableEq, Repr, Inhabited

/-- A store that has left its step and not yet performed at its memory port (R228): the accesses of its lanes by 16-byte unit, lowest
lane first. `shown` are the clusters whose warps see it already; its own warp always does. -/
structure HeldStore where
  live : Bool := false
  warp : Nat := 0
  ck : Nat := 0
  cluster : Nat := 0
  gang : Bool := false
  units : List (List (Nat × Byte)) := []
  /-- Of a PSET or PCLR: the lines, and what each becomes (R187, R233). -/
  pres : List (Nat × LineState) := []
  shown : List Nat := []
  /-- On a page with the TSO attribute: no other warp sees it before it performs (R239). -/
  tso : Bool := false
  ranks : List (Nat × Nat) := []
  /-- The operation's index in its step. -/
  idx : Nat := 0
  deriving DecidableEq, Repr, Inhabited

/-- A domain store, reduction or atomic that has performed at its target and whose acknowledgement is due (R211, R213). -/
structure Ack where
  live : Bool := false
  warp : Nat := 0
  ck : Nat := 0
  flags : Nat := 0
  /-- The rank, and the domain address of the first of its accesses. -/
  rank : Nat := 0
  addr : Nat := 0
  /-- The TINFO of R183 of a record that it is lost. -/
  info : Word := 0#32
  /-- The number of the operation. -/
  num : Nat := 0
  /-- An atomic's, whose loss its reply tells and no record (R255). -/
  atomic : Bool := false
  deriving DecidableEq, Repr, Inhabited

/-- A posted host write not yet delivered (R174, R247, R248): the bytes of one lane within one 16-byte unit, by location. -/
structure HostStore where
  live : Bool := false
  /-- On a page with the TSO attribute: sent in order (R249). -/
  tso : Bool := false
  warp : Nat := 0
  ck : Nat := 0
  /-- The window address of its first byte. -/
  addr : Word := 0#32
  /-- A release has followed it: every later device read of host memory sees it (R226); a release at gang scope, every later one of the
  gangs `gangs`. -/
  published : Bool := false
  gangs : List Nat := []
  cells : List (Nat × Byte) := []
  deriving DecidableEq, Repr, Inhabited

/-- A page in a domain translation table (R173, R252). -/
structure DomPage where
  live : Bool := false
  tso : Bool := false
  r : Bool := false
  w : Bool := false
  loc : Nat := 0
  deriving DecidableEq, Repr, Inhabited

/-- One member of an ensemble (R252). -/
structure EnsRank where
  live : Bool := false
  launch : Option Nat := none
  /-- It has deregistered; its registration ends with that of the others. -/
  left : Bool := false
  pages : Map DomPage := []
  /-- Collectives the member has issued, by TAG (R216). -/
  tags : Map Nat := []
  deriving DecidableEq, Repr, Inhabited

/-- An ensemble: its members by rank (R252). -/
structure Ens where
  live : Bool := false
  members : Map EnsRank := []
  deriving DecidableEq, Repr, Inhabited

/-- A copy in progress (R193 to R200): its template's words, layout words and origins as they stood when it performed, the near
pages it translated, by page number, and what has landed. -/
structure CopyJob where
  live : Bool := false
  warp : Nat := 0
  gang : Nat := 0
  ck : Nat := 0
  sup : Bool := false
  sec : Nat := 0
  chan : Nat := 0
  cluster : Nat := 0
  tidx : Nat := 0
  tmpl : List Word := []
  layout : List Word := []
  origin : List Word := []
  bar : Option Nat := none
  /-- The warp's reply that takes the status pair. -/
  reply : Nat := 0
  pages : List (Nat × Nat) := []
  /-- The far pages whose translation the copy has taken, each with its location (R407). -/
  farPages : List (Nat × Nat) := []
  landed : List Nat := []
  /-- Near 16-byte units, by location / 16, that the engine has moved ahead of their line: with the bytes that it read there, none where
  it wrote (R198). -/
  early : List (Nat × List Byte) := []
  flags : Nat := 0
  bytes : Nat := 0
  hits : List (Nat × Nat) := []
  deriving DecidableEq, Repr, Inhabited

/-- One member's collective in progress (R215 to R218). `nth` counts the earlier ones of its launch with the same TAG. -/
structure CollJob where
  live : Bool := false
  warp : Nat := 0
  gang : Nat := 0
  ck : Nat := 0
  sec : Nat := 0
  chan : Nat := 0
  cluster : Nat := 0
  ens : Option Nat := none
  rank : Nat := 0
  kind : Nat := 0
  opr : Nat := 0
  root : Nat := 0
  efmt : BitVec 6 := 0#6
  afmt : BitVec 6 := 0#6
  count : Nat := 0
  tag : Word := 0#32
  nth : Nat := 0
  src : Nat := 0
  dst : Nat := 0
  srcPages : List (Nat × Nat) := []
  dstPages : List (Nat × Nat) := []
  dstBytes : Nat := 0
  bar : Option Nat := none
  reply : Nat := 0
  hits : List (Nat × Nat) := []
  /-- A peer's context was killed or the ensemble ended (R218). -/
  aborted : Bool := false
  /-- The result and its flags once the engine has reduced every member's source, and the 16-byte units of the destination, from its
  start, that have been written (R198, R216). -/
  result : Option (List Nat × Nat) := none
  landed : List Nat := []
  deriving DecidableEq, Repr, Inhabited

/-- A SENDMEM that has performed and not yet completed (R312), its source staged. -/
structure SendJob where
  live : Bool := false
  warp : Nat := 0
  gang : Nat := 0
  ck : Nat := 0
  sup : Bool := false
  cluster : Nat := 0
  port : Nat := 0
  dst : Nat := 0
  stage : List Byte := []
  /-- Where each source byte lies, and the 16-byte units of the source, from its start, that were poisoned when they were read. -/
  gangSrc : Bool := false
  srcLocs : List Nat := []
  bad : List Nat := []
  user : List Word := []
  sender : Nat := 0
  reply : Nat := 0
  deriving DecidableEq, Repr, Inhabited

/-- A state of a replay gang kept for STOPAT: the point, the gang, its warps, its memory, the accesses of the step that led to it
(R374, R375). -/
structure Snap where
  interval : Nat
  count : Nat
  accs : List StepAcc
  gang : Gang
  warps : List (Nat × Warp)
  mem : List (Nat × Byte)
  /-- The poisoned 16-byte units of its memory. -/
  poison : List Nat
  deriving DecidableEq, Repr

/-- An entry of a replay gang's log (R374): the interval and count of the observation, its kind, WARPID, lanes and data. -/
structure LogEntry where
  interval : Nat := 0
  count : Nat := 0
  kind : Nat := 1
  warp : Nat := 0
  lanes : Mask := 0#32
  data : List Byte := []
  deriving DecidableEq, Repr, Inhabited

/-- Depths of the queues to which the spec gives no number. -/
structure Caps where
  mailbox : Nat := 64
  heapQ : Nat := 64
  copyQ : Nat := 64
  storeBuf : Nat := 256
  jobs : Nat := 64
  unitQ : Nat := 64
  deriving DecidableEq, Repr, Inhabited

/-- A step of the machine that the model was told to take next. -/
inductive Turn
  | event (i : Instr)
  | issue (quad : Nat)
  /-- A posted host store reaches the host (R248). -/
  | hostDeliver (store : Nat)
  /-- The completion of a host load or AtomicOp is an error in the lanes: Unsupported Request, or another (R174, R212). -/
  | hostError (warp reply : Nat) (lanes : Mask) (unsupported : Bool)
  /-- The host reads a BAR, or writes a register of BAR0 by its offset (R242, R243, R246). -/
  | barRead (fn bar offset len : Nat)
  | barWrite (fn offset : Nat) (val : DWord)
  /-- The flit in hand of a link passes its check (R251). -/
  | flitOk (link : Nat)
  /-- The debugger reads an item of a halted gang (R368); a gang that re-executes takes its next step (R375). -/
  | debugRead (item : EditTarget)
  | rerun (gang : Nat)
  /-- A held store performs at its memory port, one of its accesses does, or a cluster sees it (R219, R228). -/
  | storePerform (store : Nat)
  | storeUnit (store unit : Nat)
  | storeLine (store lane : Nat)
  | storeShow (store cluster : Nat)
  /-- One access of a pending load takes its value anew (R228). -/
  | loadLate (warp reply unit : Nat)
  /-- An operation in a matrix queue reads one unit of its memory anew (R158). -/
  | matUnit (quad pos unit : Nat)
  /-- A copy moves one near 16-byte unit, by location / 16; a collective writes one unit of its destination (R198). -/
  | copyUnit (copy unit : Nat)
  | collUnit (coll unit : Nat)
  /-- A SENDMEM reads one unit of its source anew (R312). -/
  | sendUnit (job unit : Nat)
  /-- A join unit, or a timer, takes one command off its queue (R309); a held posting is made (R295). -/
  | unitTake (unit : Nat)
  | repost
  /-- One lane of a queued atomic performs; a group of reductions' terms, as (operation, lane) pairs, performs (R207, R210). -/
  | atomicLane (op : Nat)
  | termGroup (terms : List (Nat × Nat))
  /-- A stopped gang has been saved (R351). -/
  | save (gang : Nat)
  /-- A STOPAT goes on, its gang at its boundary (R375). -/
  | rollback (gang : Nat)
  /-- DOMAIN_ACKNOWLEDGEMENT, KEYWAY_STATUS_WRITE, WIPE_COMPLETION, TLBINV_STATUS_WRITE, REPLAY_CHECKPOINT, PPS_OUTPUT. -/
  | acked (ack : Nat)
  | kwDone (job : Nat)
  | wipeDone (job : Nat)
  | tlbDone (job : Nat)
  /-- A walk cache drops an entry. -/
  | evictWalk (k : Nat)
  | checkpoint (gang : Nat)
  | pulse
  /-- A context whose supervisor did not reload a failed code page is killed (R78). -/
  | integrityKill (ck : Nat)
  /-- DUMP_STREAM_END (R385). -/
  | streamEnd (part : Nat)
  /-- A translation buffer drops the entry of a key, or an L1 a line (R230, R405, R411). -/
  | evictTlb (key : Nat)
  | evictLine (cluster key : Nat)
  | evictCode (cluster key : Nat)
  /-- One clock passes. -/
  | tick
  deriving DecidableEq, Repr

/-- The whole package. -/
structure State where
  powered : Bool := false
  warps : Map Warp := []
  gangs : Map Gang := []
  launches : Map Launch := []
  ctxs : Map Ctx := []
  parts : Map Partition := []
  quads : Map Quad := []
  clusters : Map Cluster := []
  /-- Every byte by location: partition p's PPA x at 2^42 p + x, the remote window of rank r of ensemble e at 2^80 + 2^32 (64 e + r), gang g's memory at
  2^50 + 2^22 g, host bus addresses from 2^64. An unlisted byte reads zero. -/
  mem : Map Byte := []
  ports : Map Port := []
  pats : Map Pattern := []
  /-- Messages whose posting is held while the miss buffer of their port's join unit is full, with the port's key, oldest first (R295). -/
  outbox : List (Nat × Message) := []
  /-- Commands in the queues of the join units, by section, and of the timers, at 8 + partition (R309). -/
  unitQ : Map Nat := []
  heaps : Map Heap := []
  /-- The queue of each section's heap unit (R321). -/
  heapQ : Map (List HeapOp) := []
  /-- The leaves that the translation buffers hold: by structure, context, window and page of base size (R405). -/
  tlb : Map TlbEntry := []
  /-- Table entries that point to a next table, as the walk caches hold them (R405). -/
  walks : Map DWord := []
  jobs : Map Job := []
  /-- Section of each scratchpad page that has been placed, plus one, by location / 65536 (R192, R397). -/
  placed : Map Nat := []
  fns : Map HostFn := []
  links : Map Link := []
  mc : Module := {}
  lines : Map LineState := []
  poisonLine : Map Bool := []
  poisonUnit : Map Bool := []
  /-- Owner of each 64 KiB page by location / 65536, plus one; an unlisted page is free (R398). -/
  owners : Map Nat := []
  portOps : Map PortOp := []
  /-- Stores that have not performed, by number; whether each of the next stores is held, or the next collective's result kept before it
is written (R4, R228). -/
  heldStores : Map HeldStore := []
  holds : List Bool := []
  /-- Writes that a later reader's release must wait for (R227): at 2 l for the byte at location l, at 2 k + 1 for the state of line k, the
  warps that wrote it while events of theirs numbered below the given number had not performed. -/
  debts : Map (List (Nat × Nat)) := []
  acks : Map Ack := []
  hostStores : Map HostStore := []
  copies : Map CopyJob := []
  colls : Map CollJob := []
  sends : Map SendJob := []
  ens : Map Ens := []
  /-- Ranks that the route table marks unreachable (R255). -/
  unreach : Map Bool := []
  /-- Does the host complete AtomicOps (R212)? -/
  hostAtomics : Bool := true
  /-- Remote-flag registers (R211): that of memory port n of context k at 16 k + n, the fabric's at 16 k + 8. -/
  remoteFlags : Map Nat := []
  /-- By replay gang: its kept points, and its log, oldest first. -/
  history : Map (List Snap) := []
  logs : Map (List LogEntry) := []
  clock : Nat := 0
  /-- The PHC in units of 2^-16 ns (R250, R380). -/
  phc : Nat := 0
  nextUid : Nat := 0
  /-- The warp whose operation `exec` executes. -/
  actor : Nat := 0
  inputs : List Instr := []
  /-- The ports of the commands among the inputs, in their order; beyond them that of the last one (R384). -/
  senders : List McPort := []
  nextTurn : Option Turn := none
  sched : List Nat := []
  /-- What the distributors choose: for each gang that is placed next, the assignments of R146. -/
  placings : List Nat := []
  /-- The number of the engine whose turn it is, and the highest that has drawn a sequence number in this clock (R237). -/
  engine : Nat := 0
  drawn : Nat := 0
  caps : Caps := {}
  turns : Nat := 0
  deriving DecidableEq, Repr, Inhabited

/-- The package right after reset. (DESIGN CHOICE, log 1: safe; DESIGN CHOICE, log 2: unsafe.) -/
def State.reset : State := {}

end Sys2Proof.Machine
end

