-- ==== Sys2Proof/Machine/Ops.lean ====
section
/-! DEFINITION. The shared operations over registers, memory, translation, sequence numbers and records. -/
set_option autoImplicit false

namespace Sys2Proof.Machine

/-! ### Registers of a warp (R19, R25, R350) -/

/-- The word of vector register `r` in lane `l`. -/
def Warp.vword (w : Warp) (r l : Nat) : Word := w.regs.vec.get (32 * r + l)

/-- The 32 words of vector register `r`. -/
def Warp.vreg (w : Warp) (r : Nat) : Lanes := Lanes.ofFn (w.vword r)

/-- Scalar register `r`; masks are s500 to s511 (R20). -/
def Warp.sword (w : Warp) (r : Nat) : Word := w.regs.scal.get r

/-- Lane mask m`k` (R19). -/
def Warp.mreg (w : Warp) (k : Nat) : Mask := w.sword (500 + k)

/-- Write one lane of a vector register; a write of the whole word clears its tag (R350). -/
def Warp.setV (w : Warp) (r l : Nat) (x : Word) : Warp :=
  { w with regs := { w.regs with vec := w.regs.vec.set (32 * r + l) x, vtag := w.regs.vtag.set (32 * r + l) {} } }

/-- Write the lanes of `m` of a vector register. -/
def Warp.setVs (w : Warp) (r : Nat) (m : Mask) (v : Lanes) : Warp := m.lanes.foldl (fun a l => a.setV r l (v.at l)) w

/-- Write a scalar register. -/
def Warp.setS (w : Warp) (r : Nat) (x : Word) : Warp :=
  { w with regs := { w.regs with scal := w.regs.scal.set r x, stag := w.regs.stag.set r {} } }

/-- Tag one lane of a vector register (R350). -/
def Warp.tagV (w : Warp) (r l : Nat) (t : Tag) : Warp :=
  { w with regs := { w.regs with vtag := w.regs.vtag.set (32 * r + l) t } }

def Warp.tagS (w : Warp) (r : Nat) (t : Tag) : Warp := { w with regs := { w.regs with stag := w.regs.stag.set r t } }

/-- The lane program counter of lane `l`. -/
def Warp.vpcAt (w : Warp) (l : Nat) : Word := w.sp.vpc.getD l 0#32

/-- Set the lane program counters of the lanes in `m`. -/
def Warp.setVpc (w : Warp) (m : Mask) (f : Nat → Word) : Warp :=
  { w with sp := { w.sp with vpc := (List.range 32).map (fun l => if m.has l then f l else w.vpcAt l) } }

/-- The lanes that wait in some MWAIT set (R268). -/
def Warp.mwaiting (w : Warp) : Mask := w.wsets.foldl (fun a p => a ||| p.2) 0#32

/-- The lanes that are present and have not exited. -/
def Warp.unexited (w : Warp) : Mask := w.present &&& ~~~w.exited

/-- The runnable lanes (R256). -/
def Warp.runnable (w : Warp) : Mask := w.unexited &&& ~~~w.held &&& ~~~w.mwaiting

/-- The least VPC over the runnable lanes (R27); none without a runnable lane. -/
def Warp.issuePc (w : Warp) : Option Word :=
  (w.runnable.lanes).foldl (fun a l => match a with
    | none => some (w.vpcAt l)
    | some p => some (if (w.vpcAt l).toNat < p.toNat then w.vpcAt l else p)) none

/-- The issue set `at` of R27. -/
def Warp.issueSet (w : Warp) : Mask :=
  match w.issuePc with
  | none => 0#32
  | some p => Mask.ofFn (fun l => w.runnable.has l && w.vpcAt l == p)

/-- The lowest lane of a mask, 0 when empty. -/
def lowest (m : Mask) : Nat := m.lanes.headD 0

/-- `exec()` of R27: the guard applied to the issue set of the step in progress, with pre-step masks. -/
def Warp.execSet (w : Warp) : Guard → Mask
  | .all => w.step.issue
  | .first => if w.step.issue = 0#32 then 0#32 else Mask.single (lowest w.step.issue)
  | .mask k => w.step.issue &&& w.mreg k.val

/-- May the warp name scalar register `r` (R21)? -/
def Warp.scalNamed (w : Warp) (r : Nat) : Bool := r < w.sbudget || (480 ≤ r && r < 512)

/-- Its next step starts from the first operation; latches and buffer are gone (R27, abandon_step). -/
def Warp.abandon (w : Warp) : Warp := { w with step := {}, replies := w.replies.keep (fun _ r => r.held) }

/-! ### Parts of the state by number -/

def State.warp (s : State) (u : Nat) : Warp := s.warps.get u
def State.setWarp (s : State) (u : Nat) (w : Warp) : State := { s with warps := s.warps.set u w }
def State.updWarp (s : State) (u : Nat) (f : Warp → Warp) : State := s.setWarp u (f (s.warp u))
def State.gang (s : State) (g : Nat) : Gang := s.gangs.get g
def State.setGang (s : State) (g : Nat) (x : Gang) : State := { s with gangs := s.gangs.set g x }
def State.updGang (s : State) (g : Nat) (f : Gang → Gang) : State := s.setGang g (f (s.gang g))
def State.launch (s : State) (n : Nat) : Launch := s.launches.get n
def State.updLaunch (s : State) (n : Nat) (f : Launch → Launch) : State :=
  { s with launches := s.launches.set n (f (s.launch n)) }

/-- Contexts are numbered 64 to a partition. -/
def ctxKey (part ctx : Nat) : Nat := 64 * part + ctx

def State.ctx (s : State) (k : Nat) : Ctx := s.ctxs.get k
def State.updCtx (s : State) (k : Nat) (f : Ctx → Ctx) : State := { s with ctxs := s.ctxs.set k (f (s.ctx k)) }
def State.part (s : State) (p : Nat) : Partition := s.parts.get p
def State.updPart (s : State) (p : Nat) (f : Partition → Partition) : State := { s with parts := s.parts.set p (f (s.part p)) }
def State.quad (s : State) (q : Nat) : Quad := s.quads.get q
def State.updQuad (s : State) (q : Nat) (f : Quad → Quad) : State := { s with quads := s.quads.set q (f (s.quad q)) }
def State.cluster (s : State) (c : Nat) : Cluster := s.clusters.get c
def State.updCluster (s : State) (c : Nat) (f : Cluster → Cluster) : State :=
  { s with clusters := s.clusters.set c (f (s.cluster c)) }

/-- The gang of a warp. -/
def State.gangOf (s : State) (w : Warp) : Gang := s.gang w.gang
/-- The partition number of a warp. -/
def State.partOf (s : State) (w : Warp) : Nat := (s.gangOf w).part
/-- The context key of a warp. -/
def State.ckOf (s : State) (w : Warp) : Nat := ctxKey (s.gangOf w).part (s.gangOf w).ctx

/-- The warp whose operation is executed. -/
def State.me (s : State) : Warp := s.warp s.actor
def State.setMe (s : State) (w : Warp) : State := s.setWarp s.actor w
def State.updMe (s : State) (f : Warp → Warp) : State := s.setMe (f s.me)

/-- Does the gang re-execute since a STOPAT? Its events wait until it runs live again (R375). -/
def State.frozen (s : State) (g : Nat) : Bool := (s.gang g).rerun.isSome

/-- Is a replay gang in the middle of a step? Waits end and bytes arrive at its step boundaries (R373). -/
def State.midStep (s : State) (g : Nat) : Bool :=
  (s.launch (s.gang g).launch).replay && (s.gang g).warps.any (fun u => (s.warp u).step.started)

/-- May a wait of a warp of the gang end now (R373, R375)? -/
def State.waitsEnd (s : State) (g : Nat) : Bool := !s.frozen g && !s.midStep g

/-- The physical quadrant of a gang-relative one (R146). -/
def Gang.physQuad (x : Gang) (g : Nat) : Nat := 4 * x.coreBase + x.assign.getD g g

/-- A fresh number for a warp, gang, launch or job. -/
def State.fresh (s : State) : Nat × State := (s.nextUid, { s with nextUid := s.nextUid + 1 })

/-- The warp no longer runs a body out of its quadrant's loop buffer (R76). -/
def State.leaveLoop (s : State) (u : Nat) : State :=
  let q := (s.warp u).quad
  if (s.quad q).loopBuf.users.contains u then
    s.updQuad q (fun x => { x with loopBuf := { x.loopBuf with users := x.loopBuf.users.filter (· != u) } })
  else s

/-- The value of bytes, lowest first. -/
def bytesNat : List Byte → Nat
  | [] => 0
  | b :: r => b.toNat + 256 * bytesNat r

/-- Words of a keyway image (R65). -/
def imgNat (img : List Byte) (off n : Nat) : Nat := bytesNat ((img.drop off).take n)
def imgGen (img : List Byte) : Nat := imgNat img 0x08 4

/-- The generation current in a slot; 0 for native code. -/
def State.slotGen (s : State) (p slot : Nat) : Nat := if slot = 0 then 0 else imgGen ((s.part p).slots.get slot).image

/-- A warp that stands outside the body it runs, or in another slot or generation, has left its capture (R76). -/
def State.checkLoop (s : State) (u : Nat) (pc : Word) : State :=
  let w := s.warp u
  let b := (s.quad w.quad).loopBuf
  if b.slot == w.sp.kwslot && b.gen == s.slotGen (s.partOf w) w.sp.kwslot && b.start.toNat ≤ pc.toNat && pc.toNat ≤ b.last.toNat then s
  else s.leaveLoop u

/-! ### Topology (R14) -/

def quadCore (q : Nat) : Nat := q / 4
def quadCluster (q : Nat) : Nat := q / 32
def clusterSection (c : Nat) : Nat := c / 4
def quadSection (q : Nat) : Nat := q / 128

/-! ### Generations of a slot (R75, R79) -/

/-- Is some warp bound to the old generation of the slot? -/
def State.slotBound (s : State) (p n : Nat) : Bool := s.warps.any (fun e => e.2.live && e.2.bound == n && s.partOf e.2 == p)

/-- Is slot `n` of the partition empty or another context's (R61)? -/
def State.slotForeign (s : State) (p c n : Nat) : Bool :=
  let ks := (s.part p).slots.get n
  !ks.valid || ks.owner != c

/-- Drop the decoded entries and the loop captures of a slot in its partition: every one, or those of one generation. -/
def State.dropDecoded (s : State) (p n : Nat) (gen : Option Nat) : State :=
  let hit (ck slot g : Nat) : Bool := slot == n && ck / 64 == p && (gen.getD g == g)
  { s with
    clusters := s.clusters.mapVals (fun _ y => { y with dcache := y.dcache.filter (fun e => !hit e.tag.ck e.tag.slot e.tag.gen) })
    quads := s.quads.mapVals (fun _ y => if y.loopBuf.valid && hit y.loopBuf.ck y.loopBuf.slot y.loopBuf.gen then { y with loopBuf := {} } else y) }

/-- The old image of a slot, its decoded entries and loop captures go when no warp is bound to it (R75, R79). -/
def State.dropOld (s : State) (p n : Nat) : State :=
  let x := (s.part p).slots.get n
  if n = 0 || !x.oldValid || s.slotBound p n then s
  else
    (s.updPart p (fun q => { q with slots := q.slots.upd n (fun x => { x with oldValid := false, oldImage := [], oldBase := 0#32 }) })).dropDecoded p n
      (some (imgGen x.oldImage))

/-- A warp begins a step and decodes it: its binding to an old generation ends (R79). -/
def State.unbind (s : State) (u : Nat) : State :=
  let w := s.warp u
  if w.bound = 0 then s else (s.updWarp u (fun w => { w with bound := 0 })).dropOld (s.partOf w) w.bound

/-! ### Time (R250, R263) -/

/-- PHC seconds. -/
def State.phcSec (s : State) : Nat := s.phc / (65536 * 1000000000)
/-- PHC nanoseconds within the second. -/
def State.phcNs (s : State) : Nat := s.phc / 65536 % 1000000000
/-- PHC fraction of a nanosecond, 16 bits. -/
def State.phcFrac (s : State) : Nat := s.phc % 65536

/-- Has a deadline passed (R263)? `sec` is 32 bits, `ns` is at most 999,999,999. -/
def State.deadlinePassed (s : State) (sec ns : Nat) : Bool :=
  let d := (BitVec.ofNat 32 sec - BitVec.ofNat 32 s.phcSec).toInt
  d < 0 || (d == 0 && ns ≤ s.phcNs)

/-! ### Sequence numbers and records (R237, R348) -/

/-- `seq_next(engine)` of a partition, by the engine whose turn it is. (DESIGN CHOICE, log 82: unsafe.) -/
def State.seqNext (s : State) (p : Nat) : Word × State :=
  ((s.part p).seqctr, { s with drawn := max s.drawn s.engine }.updPart p (fun x => { x with seqctr := x.seqctr + 1#32 }))

/-- `seq_before(a, b)`. -/
def seqBefore (a b : Word) : Bool := 0 < (b - a).toInt

/-- Append a record to a context's ring, or count it as dropped when the ring is full (R348). -/
def State.record (s : State) (p c : Nat) (cause : Nat) (taddr tinfo gang warp : Word) : State :=
  let k := ctxKey p c
  if 256 ≤ (s.ctx k).ring.length then s.updCtx k (fun x => { x with drops := x.drops + 1 })
  else
    let (n, s) := s.seqNext p
    s.updCtx k (fun x => { x with drops := 0, ring := x.ring ++ [{ seq := n, cause := cause, drops := min x.drops 255, taddr := taddr, tinfo := tinfo, gang := gang, warp := warp, psec := BitVec.ofNat 32 s.phcSec, pns := BitVec.ofNat 32 s.phcNs }] })

/-- The GANG and WARP fields of a record that no gang or warp applies to. -/
def noUnit : Word := 0xFFFFFFFF#32

/-- Append a record for a warp of a context. -/
def State.recordWarp (s : State) (w : Warp) (cause : Nat) (taddr tinfo : Word) : State :=
  let g := s.gangOf w
  s.record g.part g.ctx cause taddr tinfo (BitVec.ofNat 32 g.gangId) (BitVec.ofNat 32 w.wid)

/-- Append an entry to the partition log (R357, R359). -/
def State.logPart (s : State) (p : Nat) (cause : Nat) (taddr tinfo : Word) : State :=
  let (n, s) := s.seqNext p
  s.updPart p (fun x => { x with log := x.log ++ [{ seq := n, cause := cause, taddr := taddr, tinfo := tinfo, gang := noUnit, warp := noUnit, psec := BitVec.ofNat 32 s.phcSec, pns := BitVec.ofNat 32 s.phcNs }] })

/-! ### Memory by location -/

/-- The location of partition-physical address `x` of partition `p` (R397). -/
def ppaLoc (p x : Nat) : Nat := p * 2 ^ 42 + x
/-- PPA of the first byte of scratchpad (R397). -/
def scrPpa : Nat := 2 ^ 40
/-- The location of gang-memory byte `x` of gang `g` (R171). -/
def gangLoc (g x : Nat) : Nat := 2 ^ 50 + g * 2 ^ 22 + x
/-- The location of a scratchpad-window address of an ensemble's member on another package (R173). (DESIGN CHOICE, log 66: unsafe.) -/
def remoteLoc (ens rank va : Nat) : Nat := 2 ^ 80 + (64 * ens + rank) * 2 ^ 32 + va
/-- The location of a host bus address. (DESIGN CHOICE, log 67: unsafe.) -/
def hostLoc (x : Nat) : Nat := 2 ^ 64 + x

/-- The canonical form of memory: addresses strictly rise, and no listed byte is zero, which an unlisted byte reads as. -/
def Memory.wf (m : List Host.Cell) : Bool := Map.wf m

/-- One byte. An unlisted byte reads zero. (DESIGN CHOICE, log 3: unsafe.) -/
def State.byte (s : State) (loc : Nat) : Byte := s.mem.get loc

/-- Write one byte. -/
def State.setByte (s : State) (loc : Nat) (b : Byte) : State := { s with mem := s.mem.set loc b }

/-- `n` bytes upwards from a location. -/
def State.bytes (s : State) (loc n : Nat) : List Byte := (List.range n).map (fun i => s.byte (loc + i))

/-- Write bytes upwards from a location. -/
def State.setBytes (s : State) (loc : Nat) : List Byte → State
  | [] => s
  | b :: r => (s.setByte loc b).setBytes (loc + 1) r

/-- The `n` bytes of a value, lowest first. -/
def natBytes : Nat → Nat → List Byte
  | 0, _ => []
  | n + 1, x => BitVec.ofNat 8 x :: natBytes n (x / 256)

/-- A little-endian value of `n` bytes. -/
def State.read (s : State) (loc n : Nat) : Nat := bytesNat (s.bytes loc n)

/-- Write a little-endian value of `n` bytes. -/
def State.write (s : State) (loc n x : Nat) : State := s.setBytes loc (natBytes n x)

/-- The state of the line that holds a location (R184). -/
def State.line (s : State) (loc : Nat) : LineState := s.lines.get (loc / 128)

/-! ### Translation (R402 to R404, R182) -/

/-- The windows of R402, by code, that have page tables. -/
inductive Window
  | code | scr | hbm | host | spill
  deriving DecidableEq, Repr

def Window.num : Window → Nat
  | .code => 0 | .scr => 1 | .hbm => 2 | .host => 3 | .spill => 5

/-- Size of the window in bits (R402). -/
def Window.bits : Window → Nat
  | .code | .scr | .spill => 32
  | .hbm => 40
  | .host => 48

/-- The lowest index bit and the width of each level, top first (R402). -/
def Window.levels : Window → List (Nat × Nat)
  | .code | .scr | .spill => [(25, 7), (16, 9)]
  | .hbm => [(34, 6), (25, 9), (16, 9)]
  | .host => [(39, 9), (30, 9), (21, 9), (12, 9)]

/-- What a walk ends in: a leaf with the bytes it maps, nothing, or a fault. -/
inductive Walk
  | leaf (e : DWord) (size : Nat)
  | absent
  | error
  deriving DecidableEq, Repr

/-- Fields of a table entry (R403). -/
def pteV (e : DWord) : Bool := e.getLsbD 63
def pteLeaf (e : DWord) : Bool := e.getLsbD 62
def pteR (e : DWord) : Bool := e.getLsbD 61
def pteW (e : DWord) : Bool := e.getLsbD 60
def pteX (e : DWord) : Bool := e.getLsbD 59
def pteS (e : DWord) : Bool := e.getLsbD 58
def pteTso (e : DWord) : Bool := e.getLsbD 57
def pteFrame (e : DWord) : Nat := e.toNat / 4096 % 2 ^ 40 * 4096

/-- A reserved bit of an entry is set (R403). TSO counts as reserved outside the host window and the scratchpad. -/
def pteBad (win : Window) (e : DWord) : Bool :=
  e.toNat % 4096 != 0 || e.toNat / 2 ^ 52 % 32 != 0
  || (pteV e && !pteLeaf e && (pteR e || pteW e || pteX e || pteS e || pteTso e))
  || (pteTso e && win != .host && win != .scr)

/-- The owner of the 64 KiB page that holds PPA `x` (R398); a page of no entry is free. -/
def State.owner (s : State) (p x : Nat) : Nat :=
  match s.owners.get (ppaLoc p x / 65536) with
  | 0 => 0x7F
  | n + 1 => n

/-- Does PPA `x` lie in the partition's ranges (R397)? -/
def State.ppaInside (s : State) (p x : Nat) : Bool :=
  let n := (s.part p).nsec
  x < 2 ^ 36 * n || (scrPpa ≤ x && x < scrPpa + 65536 * 2048 * n)

/-- TINFO of R183: MADDRH is address bits [47:32] where addresses have more than 32. (DEDUCED, log 38: unsafe.) -/
def memInfo (sp : Nat) (macc lane idx addr : Nat) : Word :=
  let high := if 3 ≤ sp then addr / 2 ^ 32 % 65536 else 0
  BitVec.ofNat 32 (high * 65536 + lane * 2048 + sp * 256 + macc * 64 + idx)

/-- The key of an entry of the walk cache of section `sec`: window, context, level, and the address above the level (R405). -/
def walkKey (sec p c : Nat) (win : Window) (lo va : Nat) : Nat :=
  (sec * 2 ^ 12 + 8 * ctxKey p c + win.num) * 2 ^ 46 + lo * 2 ^ 40 + va / 2 ^ lo

/-- The walk of R404, level by level; a table entry that the section's walk cache holds is not read again (R405). (DESIGN CHOICE, log 43:
unsafe.) -/
def walkLevels (s : State) (sec p c : Nat) (win : Window) (va : Nat) : List (Nat × Nat) → Nat → Walk
  | [], _ => .absent
  | (lo, w) :: rest, t =>
    let held := s.walks.get (walkKey sec p c win lo va)
    if held != 0#64 then walkLevels s sec p c win va rest (pteFrame held)
    else
    let loc := ppaLoc p (t + 8 * (va / 2 ^ lo % 2 ^ w))
    let e : DWord := BitVec.ofNat 64 (s.read loc 8)
    if s.poisonLine.get (loc / 128) || pteBad win e then .error
    else if !pteV e then .absent
    else if !pteLeaf e then
      if rest.isEmpty then .error
      else if !(pteFrame e < 2 ^ 36 * (s.part p).nsec) || !(s.owner p (pteFrame e) == c || s.owner p (pteFrame e) == 0x40) then .error
      else walkLevels s sec p c win va rest (pteFrame e)
    else if pteFrame e % 2 ^ lo != 0 then .error
    else if win != .host && !((List.range (2 ^ (lo - 16))).all (fun i =>
        let x := pteFrame e + 65536 * i
        s.ppaInside p x && (s.owner p x == c || (s.owner p x == 0x40 && pteS e)))) then .error
    else .leaf e (2 ^ lo)

/-- The walk of a window for context `c` of partition `p` by section `sec`. An address past the window translates as absent. -/
def State.walk (s : State) (sec p c : Nat) (win : Window) (va : Nat) : Walk :=
  if 2 ^ win.bits ≤ va then .absent
  else
    let root := (s.ctx (ctxKey p c)).roots.get win.num
    if root = 0 then .absent else walkLevels s sec p c win va win.levels (root - 1)

/-- The table entries of a walk that reaches a leaf, each with its key in the walk cache. -/
def walkTables (s : State) (sec p c : Nat) (win : Window) (va : Nat) : List (Nat × Nat) → Nat → List (Nat × DWord)
  | [], _ => []
  | (lo, w) :: rest, t =>
    let k := walkKey sec p c win lo va
    let held := s.walks.get k
    let e : DWord := if held != 0#64 then held else BitVec.ofNat 64 (s.read (ppaLoc p (t + 8 * (va / 2 ^ lo % 2 ^ w))) 8)
    if pteV e && !pteLeaf e then (k, e) :: walkTables s sec p c win va rest (pteFrame e) else []

/-- The accesses of R182. -/
inductive Access
  | read | write | atomic | presQuery | presSet | fetch | supRead | supWrite
  deriving DecidableEq, Repr

/-- Does the entry grant the access (R182, R404)? `sup` is supervisor mode; `supRead` and `supWrite` need
S = 1 besides. -/
def Access.ok (a : Access) (e : DWord) (sup : Bool) : Bool :=
  (sup || !pteS e) && match a with
  | .read | .presQuery => pteR e
  | .write | .presSet => pteW e
  | .atomic => pteR e && pteW e
  | .fetch => pteX e
  | .supRead => pteR e && pteS e
  | .supWrite => pteW e && pteS e

/-- The outcome of `translate()` for one page: a location with the TSO attribute, or a cause. -/
inductive Trans
  | ok (loc : Nat) (tso : Bool)
  | cause (n : Nat)
  deriving DecidableEq, Repr

/-- Cause codes of R342 by name. -/
def cILLEGAL_OP : Nat := 0x01
def cGUEST_NOTEMPLATE : Nat := 0x02
def cGUEST_NOMATCH : Nat := 0x03
def cKEYWAY_INVALID : Nat := 0x04
def cOPERAND_KIND : Nat := 0x05
def cLATCH_RANGE : Nat := 0x06
def cSTEP_FORM : Nat := 0x07
def cPRIVILEGED : Nat := 0x08
def cSOFT_TRAP : Nat := 0x09
def cBREAKPOINT : Nat := 0x0A
def cSINGLE_STEP : Nat := 0x0B
def cWATCHPOINT : Nat := 0x0C
def cREG_BUDGET : Nat := 0x0D
def cLOOP_FORM : Nat := 0x0E
def cCODE_INTEGRITY : Nat := 0x0F
def cPAGE_ABSENT : Nat := 0x10
def cPAGE_RIGHTS : Nat := 0x11
def cMISALIGNED : Nat := 0x12
def cSPACE_LIMIT : Nat := 0x13
def cHOST_ABORT : Nat := 0x14
def cREMOTE_UNREACHABLE : Nat := 0x15
def cREPLY_LOST : Nat := 0x16
def cPOISON : Nat := 0x17
def cCOPY_TEMPLATE : Nat := 0x18
def cCOPY_ERROR : Nat := 0x19
def cATOMIC_UNSUPPORTED : Nat := 0x1A
def cLINE_FAILED : Nat := 0x1B
def cSEND_ERROR : Nat := 0x1C
def cSCRATCH_QUOTA : Nat := 0x1D
def cLAYOUT_WORD : Nat := 0x1E
def cWALK_ERROR : Nat := 0x1F
def cBARRIER_MISMATCH : Nat := 0x20
def cBARRIER_BROKEN : Nat := 0x21
def cBYTE_EXCESS : Nat := 0x22
def cPORT_FULL : Nat := 0x23
def cPORT_INVALID : Nat := 0x24
def cPATTERN_INVALID : Nat := 0x25
def cHEAP_FULL : Nat := 0x26
def cHEAP_INEXACT : Nat := 0x27
def cMASK_STATE : Nat := 0x28
def cWATCHDOG : Nat := 0x29
def cADMISSION : Nat := 0x2A
def cMATRIX_GROUP : Nat := 0x2B
def cMATRIX_SHAPE : Nat := 0x2C
def cACC_FIRST_USE : Nat := 0x2D
def cCOLL_PEER_ABORT : Nat := 0x2E
def cCOLL_FORM : Nat := 0x2F
def cPREEMPT : Nat := 0x38
def cDEBUG_HALT : Nat := 0x39
def cMACHINE_CHECK : Nat := 0x3A
def cMACHINE_CHECK_FATAL : Nat := 0x3B
def cPARTITION_RESET : Nat := 0x3C
def cCONTEXT_KILLED : Nat := 0x3D
def cTIME_TRIGGER_LATE : Nat := 0x3E
def cSIGNAL_DENIED : Nat := 0x3F

/-! ### Translation structures (R405)

Each has a number: the buffer of cluster `c` has `c`, that of section `n` has 32 + n, that of its copy engines 40 + n. The control cores
have none (48). -/

/-- The base page of a window (R402). -/
def Window.base (win : Window) : Nat := if win == .host then 4096 else 65536

/-- The key of an entry of structure `un` for an address of a window. (DESIGN CHOICE, log 43: unsafe.) -/
def tlbKey (un p c : Nat) (win : Window) (va : Nat) : Nat :=
  un * 2 ^ 48 + (8 * ctxKey p c + win.num) * 2 ^ 36 + va / win.base

/-- The control cores' number. -/
def controlUnit : Nat := 48
def copyUnitOf (sec : Nat) : Nat := 40 + sec

/-- The section whose walk cache serves a structure. -/
def unitSection (un : Nat) : Nat := if un < 32 then clusterSection un else if un < 40 then un - 32 else un - 40

/-- The buffers that an access through structure `un` looks into, in their order. -/
def tlbUnits (un : Nat) : List Nat := if un < 32 || (40 ≤ un && un < 48) then [un, 32 + unitSection un] else []

/-- The walk as an access through a structure meets it: a buffered leaf serves it, else the tables are read (R405, R407). (DESIGN CHOICE,
log 43: unsafe.) -/
def State.leafAt (s : State) (un p c : Nat) (win : Window) (va : Nat) : Walk :=
  if 2 ^ win.bits ≤ va then .absent
  else
    match (tlbUnits un).find? (fun x => (s.tlb.get (tlbKey x p c win va)).size != 0) with
    | some x => let t := s.tlb.get (tlbKey x p c win va); .leaf t.leaf t.size
    | none => s.walk (unitSection un) p c win va

/-- Keep the leaf that an access used, and the table entries of its walk. (DESIGN CHOICE, log 43: unsafe.) -/
def State.tlbFill (s : State) (un p c : Nat) (win : Window) (va : Nat) : State :=
  match s.leafAt un p c win va with
  | .leaf e size =>
    let hit := (tlbUnits un).any (fun x => (s.tlb.get (tlbKey x p c win va)).size != 0)
    let ts := if hit then [] else walkTables s (unitSection un) p c win va win.levels ((s.ctx (ctxKey p c)).roots.get win.num - 1)
    { s with
      tlb := (tlbUnits un).foldl (fun m x => m.set (tlbKey x p c win va) { leaf := e, size := size }) s.tlb
      walks := ts.foldl (fun m x => m.set x.1 x.2) s.walks }
  | _ => s

/-- `translate()` of one address through a window, by a structure (R182, R404). -/
def State.translateAt (s : State) (un p c : Nat) (win : Window) (a : Access) (sup : Bool) (va : Nat) : Trans :=
  match s.leafAt un p c win va with
  | .error => .cause cWALK_ERROR
  | .absent => .cause cPAGE_ABSENT
  | .leaf e size =>
    if a.ok e sup then
      .ok (if win == .host then hostLoc (pteFrame e + va % size) else ppaLoc p (pteFrame e + va % size)) (pteTso e)
    else .cause cPAGE_RIGHTS

/-- `translate()` for the acting warp: by its cluster's buffer. -/
def State.translate (s : State) (p c : Nat) (win : Window) (a : Access) (sup : Bool) (va : Nat) : Trans :=
  s.translateAt (quadCluster s.me.quad) p c win a sup va

end Sys2Proof.Machine
end

