-- ==== Sys2Proof/Machine/Ports.lean ====
section
/-! DEFINITION. Ports, messages and patterns as the join units hold them (R291 to R305): posting, parked senders, completeness. -/
set_option autoImplicit false

namespace Sys2Proof.Machine

/-- Ports are numbered 65,536 to a context. -/
def portKey (ck n : Nat) : Nat := 65536 * ck + n
/-- Patterns are numbered 4,096 to a context. -/
def patKey (ck n : Nat) : Nat := 4096 * ck + n
/-- Heaps are numbered 16 to a context. -/
def heapKey (ck h : Nat) : Nat := 16 * ck + h

def State.port (s : State) (k : Nat) : Port := s.ports.get k
def State.updPort (s : State) (k : Nat) (f : Port → Port) : State := { s with ports := s.ports.set k (f (s.port k)) }
def State.pat (s : State) (k : Nat) : Pattern := s.pats.get k
def State.updPat (s : State) (k : Nat) (f : Pattern → Pattern) : State := { s with pats := s.pats.set k (f (s.pat k)) }

/-- The message at the head of a port: the wake message of R298 first. -/
def Port.head (p : Port) : Option Message :=
  if p.wake != 0#32 then some { seq := p.wakeSeq, sender := p.wakeSender, kind := 8, arrived := p.wakeAt, payload := [p.wake, 0#32, 0#32, 0#32, 0#32, 0#32] }
  else p.msgs.head?

/-- Remove the head message (R298, R305). -/
def Port.pop (p : Port) : Port :=
  if p.wake != 0#32 then { p with wake := 0#32 } else { p with msgs := p.msgs.drop 1 }

/-- Slots that no message and no performed SENDMEM holds. -/
def Port.free (p : Port) : Nat := p.depth - (p.msgs.length + p.heldSlots)

/-- Arrivals held in the miss buffer of a section's join unit (R295). -/
def State.missCount (s : State) (sec : Nat) : Nat :=
  s.ports.foldl (fun a e => if e.2.home == sec then a + e.2.buffered.length else a) 0

/-- PWLOST and PWBAD of a function, which saturate (R246). -/
def State.countLost (s : State) (fn : Nat) : State := { s with fns := s.fns.upd fn (fun f => { f with pwlost := min (f.pwlost + 1) 0xFFFF }) }
def State.countBad (s : State) (fn : Nat) : State := { s with fns := s.fns.upd fn (fun f => { f with pwbad := min (f.pwbad + 1) 0xFFFF }) }

/-- A message is lost at a port, full or invalid: LOST and the PORT_FULL record (R299, R300); a lost host message adds to PWLOST (R244). -/
def State.loseMsg (s : State) (p c port kind : Nat) : State :=
  let k := portKey (ctxKey p c) port
  let s := if kind = 6 then s.countLost p else s
  let s := if (s.port k).valid || (s.ctx (ctxKey p c)).live then s.updPort k (fun x => { x with lost := min (x.lost + 1) 0xFFFF }) else s
  s.record p c cPORT_FULL (BitVec.ofNat 32 kind) (BitVec.ofNat 32 port) noUnit noUnit

/-- Apply an arrival at a resident port (R299), its SEQ already drawn. Senders parked on it are no messages. (DEDUCED, log 79: unsafe.) -/
def State.arrive (s : State) (p c port : Nat) (m : Message) : State :=
  let k := portKey (ctxKey p c) port
  let x := s.port k
  if x.valid && !x.quar && 0 < x.free then
    s.updPort k (fun x => { x with msgs := x.msgs ++ [{ m with arrived := s.phc }], lastUsed := s.clock })
  else if m.kind = 6 && (!x.valid || x.quar) then s.countBad p
  else s.loseMsg p c port m.kind

/-- May an engine post to the port now? Not while its join unit's miss buffer would overflow (R295). -/
def State.canPost (s : State) (p c port : Nat) : Bool :=
  let x := s.port (portKey (ctxKey p c) port)
  !x.valid || x.quar || x.resident || s.missCount x.home < 1024

/-- Post a message that already carries its SEQ: held in the miss buffer when the port is not resident (R295). -/
def State.postSeq (s : State) (p c port : Nat) (m : Message) : State :=
  let k := portKey (ctxKey p c) port
  let x := s.port k
  if x.valid && !x.quar && !x.resident then s.updPort k (fun x => { x with buffered := x.buffered ++ [m] })
  else s.arrive p c port m

/-- An engine, a timer or the control cores post a message: SEQ is drawn at the posting (R296), which is held while the miss buffer has
no room (R295). -/
def State.post (s : State) (p c port : Nat) (m : Message) : State :=
  if s.canPost p c port then
    let (n, s) := s.seqNext p
    s.postSeq p c port { m with seq := n }
  else { s with outbox := s.outbox ++ [(portKey (ctxKey p c) port, m)] }

/-- May a held posting be made now? -/
def State.repostable (s : State) (e : Nat × Message) : Bool := s.canPost (e.1 / 65536 / 64) (e.1 / 65536 % 64) (e.1 % 65536)

/-- The oldest held posting that can be made is made. -/
def State.repost (s : State) : State :=
  match s.outbox.find? s.repostable with
  | none => s
  | some e => ({ s with outbox := s.outbox.erase e }).post (e.1 / 65536 / 64) (e.1 / 65536 % 64) (e.1 % 65536) e.2

/-- The position of a warp among the senders parked on a port; behind all of them if it is none (R309). -/
def Port.rankOf (x : Port) (u : Nat) : Nat := x.parked.findIdx (· == u)

/-- Is the port full for this sender? Slots free for senders parked before it are reserved for them (R309). -/
def Port.fullFor (x : Port) (u : Nat) : Bool := x.free ≤ x.rankOf u

/-- Take a warp out of the lists of parked senders and poppers that it left (R309, R328). -/
def State.unpark (s : State) (u : Nat) : State :=
  let w := s.warp u
  let s := match w.tryPort with
    | none => s
    | some k => s.updPort k (fun x => { x with parked := x.parked.filter (· != u) })
  let s := match w.tryHeap with
    | none => s
    | some k => { s with heaps := s.heaps.upd k (fun h => { h with parked := h.parked.filter (· != u) }) }
  s.updWarp u (fun w => { w with tryPort := none, tryHeap := none, tryAway := false })

/-! ### Pattern entries (R301) -/

def Pattern.ctrl (x : Pattern) : Word := x.words.getD 4 0#32
def Pattern.valid (x : Pattern) : Bool := x.ctrl.getLsbD 31
/-- A wake handler. -/
def Pattern.isWake (x : Pattern) : Bool := x.ctrl.getLsbD 28
def Pattern.prio (x : Pattern) : Nat := x.ctrl.toNat / 2 ^ 24 % 16
def Pattern.nports (x : Pattern) : Nat := x.ctrl.toNat / 2 ^ 16 % 8 + 1
def Pattern.desc (x : Pattern) : Nat := x.ctrl.toNat % 4096
def Pattern.portNo (x : Pattern) (i : Nat) : Nat := (x.words.getD (i / 2) 0#32).toNat / 2 ^ (16 * (i % 2)) % 65536
def Pattern.ports (x : Pattern) : List Nat := (List.range x.nports).map x.portNo

/-- A reserved bit of the entry is set, or a port above NPORTS is named (R301). -/
def Pattern.reservedBad (x : Pattern) : Bool :=
  x.ctrl.toNat / 2 ^ 19 % 32 != 0 || x.ctrl.toNat / 2 ^ 12 % 16 != 0
  || !((List.range 8).all (fun i => i < x.nports || x.portNo i == 0)) || !((x.words.drop 5).all (· == 0#32))
  || (x.isWake && x.desc != 0)

/-- The home section of a pattern's ports. -/
def State.patHome (s : State) (ck : Nat) (x : Pattern) : Nat := (s.port (portKey ck (x.portNo 0))).home

/-- Entries of the partition's launch queue (R277, R282): launches with gangs not yet admitted, and saved gangs. -/
def State.queueLen (s : State) (p : Nat) : Nat :=
  (s.launches.filter (fun e => e.2.live && e.2.part == p && e.2.started < e.2.gangs)).length
  + (s.gangs.filter (fun e => e.2.part == p && e.2.place == .saved)).length

/-- Is an armed pattern complete (R303)? -/
def State.complete (s : State) (pk : Nat) : Bool :=
  let x := s.pat pk
  let ck := pk / 4096
  x.armed && x.ports.all (fun n => (s.port (portKey ck n)).head.isSome)
  && (if x.isWake then (match x.waiters with | u :: _ => s.waitsEnd (s.warp u).gang | [] => false) else s.queueLen (ck / 64) < 256)

/-- The oldest head of a pattern (R303). (DEDUCED, log 50: unsafe.) -/
def State.oldestHead (s : State) (pk : Nat) : Word :=
  let x := s.pat pk
  let seqs := x.ports.filterMap (fun n => (s.port (portKey (pk / 4096) n)).head.map (·.seq))
  match seqs with
  | [] => 0#32
  | a :: r => r.foldl (fun m y => if seqBefore y m then y else m) a

/-- The armed patterns of a section's join unit. -/
def State.armedIn (s : State) (sec : Nat) : List Nat :=
  (s.pats.filter (fun e => e.2.armed && s.patHome (e.1 / 4096) e.2 == sec)).map (·.1)

/-- The complete patterns of a section's join unit. -/
def State.completeIn (s : State) (sec : Nat) : List Nat := (s.armedIn sec).filter (fun k => s.complete k)

end Sys2Proof.Machine
end

