-- ==== Sys2Proof/Machine/HeapUnit.lean ====
section
/-! DEFINITION. The gain heap unit (R318 to R331): the lane operations, the exact residual, termination. -/
set_option autoImplicit false

namespace Sys2Proof.Machine

/-- GMAX of R320. -/
def gMax : Word := 0x54FFFFFF#32

/-- tr(x) in units of 2^-96, of a gain's FP32 code (R322). -/
def tr96 (w : Word) : Nat :=
  match decodeVal .f32 w.toNat with
  | .fin false n d => n * 2 ^ 96 / d
  | _ => 0

def Heap.entry (h : Heap) (i : Nat) : HeapEntry := h.entries.get i

/-- The share of an entry in RESID (R322). -/
def HeapEntry.share : HeapEntry → Nat
  | .absent => 0
  | .queued g => tr96 g
  | .flight held pend _ => tr96 held + tr96 pend

def HeapEntry.isQueued : HeapEntry → Bool
  | .queued _ => true
  | _ => false

def HeapEntry.isFlight : HeapEntry → Bool
  | .flight _ _ _ => true
  | _ => false

/-- COUNT (R320). -/
def Heap.count (h : Heap) : Nat := (h.entries.filter (fun e => e.2.isQueued)).length
/-- INFLIGHT (R320). -/
def Heap.inflight (h : Heap) : Nat := (h.entries.filter (fun e => e.2.isFlight)).length

/-- Replace an entry and adjust RESID by the difference of the shares (R322). -/
def Heap.put (h : Heap) (i : Nat) (e : HeapEntry) : Heap :=
  { h with entries := h.entries.set i e, resid := h.resid - (h.entry i).share + e.share }

/-- The first queued entry: larger GAIN, then lower id (R321). -/
def Heap.first (h : Heap) : Option (Nat × Word) :=
  h.entries.foldl (fun best e => match e.2 with
    | .queued g => (match best with
      | none => some (e.1, g)
      | some (_, bg) => if bg.toNat < g.toNat then some (e.1, g) else best)
    | _ => best) none

/-- What a lane operation leaves: the heap, the id of a dropped insertion, the lane's result. -/
structure HeapStep where
  heap : Heap
  full : Option Nat := none
  id : Word := 0#32
  gain : Word := 0#32

/-- `ins(i, g)` of R326. -/
def Heap.ins (h : Heap) (i : Nat) (g : Word) : HeapStep :=
  if g.toNat ≤ h.thresh.toNat then { heap := h }
  else if h.count + h.inflight < h.cap then { heap := h.put i (.queued g) }
  else { heap := { h with inexact := true }, full := some i }

/-- max(round(a + d), +0), clamped to GMAX; the flag says that it was clamped (R326). -/
def gainSum (a d : Word) : Word × Bool :=
  let r := (round .f32 .rne false (xadd .rne (decodeVal .f32 a.toNat) (decodeVal .f32 d.toNat)).1).1
  if 0x80000000 ≤ r then (0#32, false)
  else if gMax.toNat ≤ r then (gMax, true)
  else (BitVec.ofNat 32 r, false)

/-- HEAPPUT of one lane; a gain of -0 is +0 (R326). -/
def Heap.doPut (h : Heap) (i : Nat) (g0 : Word) : HeapStep :=
  let g := if g0 == 0x80000000#32 then 0#32 else g0
  match h.entry i with
  | .queued _ => { heap := h.put i (if g.toNat ≤ h.thresh.toNat then .absent else .queued g) }
  | .flight held _ gang => { heap := h.put i (.flight held g gang) }
  | .absent => h.ins i g

/-- GAINADD of one lane. -/
def Heap.doAdd (h : Heap) (i : Nat) (d : Word) : HeapStep :=
  match h.entry i with
  | .queued g =>
    let r := gainSum g d
    let h := { h with clamped := h.clamped || r.2 }
    { heap := h.put i (if r.1.toNat ≤ h.thresh.toNat then .absent else .queued r.1) }
  | .flight held p gang =>
    let r := gainSum p d
    let h := { h with clamped := h.clamped || r.2 }
    { heap := h.put i (.flight held r.1 gang) }
  | .absent =>
    if d.getLsbD 31 || d == 0#32 then { heap := h }
    else
      let big := gMax.toNat ≤ d.toNat
      let h := { h with clamped := h.clamped || big }
      h.ins i (if big then gMax else d)

/-- HEAPDONE of one lane. -/
def Heap.doDone (h : Heap) (i : Nat) : HeapStep :=
  match h.entry i with
  | .flight _ p _ => (h.put i .absent).ins i p
  | _ => { heap := { h with baddone := min (h.baddone + 1) 255 } }

/-- HEAPPOP of one lane for a gang; `spare` entries are reserved for others (R328). -/
def Heap.doPop (h : Heap) (gang spare : Nat) : HeapStep :=
  if h.count ≤ spare then { heap := h, id := 0xFFFFFFFF#32 }
  else match h.first with
  | none => { heap := h, id := 0xFFFFFFFF#32 }
  | some (i, g) => { heap := h.put i (.flight g 0#32 gang), id := BitVec.ofNat 32 i, gain := g }

/-- HEAPDRAIN of one lane. (DEDUCED, log 47: unsafe.) -/
def Heap.doDrain (h : Heap) : HeapStep :=
  match h.first with
  | none => { heap := h, id := 0xFFFFFFFF#32 }
  | some (i, g) => { heap := h.put i .absent, id := BitVec.ofNat 32 i, gain := g }

/-- The exact residual of the entries (R322). -/
def Heap.recount (h : Heap) : Nat := h.entries.foldl (fun a e => a + e.2.share) 0

/-- The termination condition (R323). -/
def Heap.terminated (h : Heap) : Bool := h.resid < tr96 h.tol && h.inflight == 0 && !h.inexact

/-- Store a heap after an operation, evaluating termination in the same act (R323), and record a dropped insertion (R331). -/
def State.heapAfter (s : State) (hk : Nat) (r : HeapStep) : State :=
  let ck := hk / 16
  let p := ck / 64
  let c := ck % 64
  let n := hk % 16
  let t := r.heap.terminated
  let s := { s with heaps := s.heaps.set hk { r.heap with termd := t } }
  let s := match r.full with
    | some i => s.record p c cHEAP_FULL (BitVec.ofNat 32 n) (BitVec.ofNat 32 i) noUnit noUnit
    | none => s
  if t && !r.heap.termd then
    s.post p c r.heap.tport { kind := 5, sender := n, payload := (List.range 5).map (fun i => BitVec.ofNat 32 (r.heap.resid / 2 ^ (32 * i))) ++ [BitVec.ofNat 32 r.heap.count] }
  else s

/-- Does a termination message of a heap of this section still wait for room in a miss buffer? The unit waits with it (R295). -/
def State.heapHeld (s : State) (sec : Nat) : Bool :=
  s.outbox.any (fun e => e.2.kind == 5 && (s.heaps.get (heapKey (e.1 / 65536) e.2.sender)).home == sec)

/-- Entries that a pop leaves to poppers parked before it (R328). -/
def Heap.spareFor (h : Heap) (o : HeapOp) : Nat := (o.behind.filter h.parked.contains).length

/-- What a HEAPPOP.w may take as it acts: where every queued entry is another's, its first lane takes one all the same, since it
performed with an entry for it and never finds every lane empty before termination (R328). (DEDUCED, log 47: unsafe.) -/
def Heap.opened (h : Heap) (o : HeapOp) : HeapOp :=
  if o.wt && !h.termd && h.count ≤ h.spareFor o then { o with behind := (o.behind.filter h.parked.contains).take (h.count - 1) } else o

/-- Does a HEAPPOP.w in the queue wait: no entry is queued any more and the heap has not terminated (R328, R331)? (DEDUCED, log 47:
unsafe.) -/
def State.heapWaits (s : State) (o : HeapOp) : Bool :=
  let h := s.heaps.get o.heap
  o.wt && h.valid && h.count == 0 && !h.termd && (s.warp o.warp).replies.any (fun e => e.1 == o.reply)

/-- The operation that a unit takes: the oldest that need not wait, behind none of its own warp that does (R321). -/
def State.heapPick (s : State) (waiting : List Nat) : List HeapOp → Option HeapOp
  | [] => none
  | o :: rest =>
    if o.kind != .retire && waiting.contains o.warp then s.heapPick waiting rest
    else if s.heapWaits o then s.heapPick (o.warp :: waiting) rest
    else some o

/-- One lane operation of a queued instruction (R326). -/
def Heap.lane (h : Heap) (o : HeapOp) (i : Nat) (g : Word) : HeapStep :=
  match o.kind with
  | .put => h.doPut i g
  | .add => h.doAdd i g
  | .done => h.doDone i
  | .pop => h.doPop o.gang (h.spareFor o)
  | .retire => { heap := h }
  | .drain => h.doDrain
  | .sum => { heap := { h with resid := h.recount, inexact := false, clamped := false, baddone := 0 } }

/-- The pair of HEAPSUM (R327), from the heap before the recount. -/
def Heap.sumPair (h : Heap) : Word × Word :=
  let after := { h with resid := h.recount, inexact := false }
  let fresid := (round .f32 .rne false ((XReal.fin false after.resid 1).scale (-96))).1
  (BitVec.ofNat 32 fresid,
   BitVec.ofNat 32 ((if h.inexact then 2 ^ 31 else 0) + (if after.terminated then 2 ^ 30 else 0) + (if h.clamped then 2 ^ 29 else 0)
     + h.baddone * 2 ^ 21 + h.inflight))

/-- The entries that a gang holds in flight. -/
def Heap.flightOf (h : Heap) (gang : Nat) : List Nat :=
  (h.entries.filter (fun e => match e.2 with | .flight _ _ g => g == gang | _ => false)).map (·.1)

/-- HEAPDONE for every entry that a gang still holds in flight (R330). -/
def State.heapGangDone (s : State) (hk gang : Nat) : State :=
  ((s.heaps.get hk).flightOf gang).foldl (fun s i => s.heapAfter hk ((s.heaps.get hk).doDone i)) s

/-- A gang retires: behind its own operations in the units' queues, its entries in flight complete (R321, R330). -/
def State.heapRetire (s : State) (ck gang : Nat) : State :=
  (List.range 16).foldl (fun s n =>
    let hk := heapKey ck n
    let h := s.heaps.get hk
    let q := s.heapQ.get h.home
    if h.valid && (!(h.flightOf gang).isEmpty || q.any (fun o => o.gang == gang && o.heap == hk)) then
      { s with heapQ := s.heapQ.set h.home (q ++ [{ kind := .retire, warp := 0, gang := gang, heap := hk, lanes := [], reply := 0, behind := [] }]) }
    else s) s

end Sys2Proof.Machine
end

