-- ==== Sys2Proof/Config.lean ====
section
/-! DEFINITION. The values that the spec leaves open, as constants without a body, and the named algorithms of other standards. -/
set_option autoImplicit false

namespace Sys2Proof

/-- The word that a latch holds in a lane where its operation made no access or had no value: the spec gives none there (R25, R51,
R144, R178). The argument names the warp, its step, the operation and the lane. (DESIGN CHOICE, log 4: safe.) -/
opaque Config.freeWord : Nat → BitVec 32

/-- The FP32 result of approximate function `fn` (0 VFRCP, 1 VFRSQ, 2 VFEXP2, 3 VFLOG2, 4 VFSIN, 5 VFCOS) at an operand: the spec
gives a bound and says that the bits are a fixed function of the operand (R130). (DESIGN CHOICE, log 6: safe.) -/
opaque Config.approxF32 : Nat → BitVec 32 → BitVec 32

/-- SHA-384 of a byte string (R77, R413, R417), a named algorithm of another standard. (DESIGN CHOICE, log 9: safe.) -/
opaque Config.sha384 : List (BitVec 8) → BitVec 384

/-- Does an Ed25519 signature verify: key, message, signature (R77, R413)? (DESIGN CHOICE, log 9: safe.) -/
opaque Config.ed25519 : BitVec 256 → List (BitVec 8) → List (BitVec 8) → Bool

/-- Does an ML-DSA-65 signature verify: key, message, signature (R77, R413)? (DESIGN CHOICE, log 9: safe.) -/
opaque Config.mldsa65 : List (BitVec 8) → List (BitVec 8) → List (BitVec 8) → Bool

/-- Do both signatures of a firmware image verify under the vendor root (R378)? The spec does not give the image's layout. (DESIGN CHOICE, log 9: safe.) -/
opaque Config.firmwareSigned : BitVec 384 → List (BitVec 8) → Bool

/-- The ECDSA P-384 signature of the device identity over a response (R413, R417); the first argument is the device's serial. (DESIGN CHOICE, log 9: safe.) -/
opaque Config.identitySign : Nat → List (BitVec 8) → List (BitVec 8)

/-- The device's certificate chain (R413, R417). (DESIGN CHOICE, log 9: safe.) -/
opaque Config.certificate : Nat → List (BitVec 8)

/-- The section of a partition, counted from its first, that holds an HBM page: the interleave is fixed and the spec does not give
it (R397). The arguments are the number of sections and the page. (DESIGN CHOICE, log 10: safe.) -/
opaque Config.hbmSection : Nat → Nat → Nat

/-- Is a client key enrolled for a life-cycle state, numbered 0 BLANK to 4 RETIRED, on the management controller's network port (R384)? The spec
gives no command that enrols one. (DESIGN CHOICE, log 96: safe.) -/
opaque Config.clientEnrolled : Nat → BitVec 384 → Bool

/-- The digest of the boot ROM (R417). (DESIGN CHOICE, log 9: safe.) -/
opaque Config.bootRomDigest : BitVec 384

end Sys2Proof
end

