-- ==== Sys2Proof/Machine/Flags.lean ====
section
/-! DEFINITION. The integer element functions and their flags (R85, R106, R111 to R117), on exact integers. -/
set_option autoImplicit false

namespace Sys2Proof.Machine

/-- Element `k` of width `w` of a register value, unsigned (R85). -/
def elemNat (w k x : Nat) : Nat := x / 2 ^ (w * k) % 2 ^ w

/-- A code of width `w` read signed or unsigned (R106). -/
def readInt (sg : Bool) (w x : Nat) : Int := if sg && 2 ^ (w - 1) ≤ x % 2 ^ w then (x % 2 ^ w : Int) - 2 ^ w else (x % 2 ^ w : Int)

/-- The low `w` bits of an exact result (R86). -/
def keep (w : Nat) (r : Int) : Nat := (r % (2 ^ w : Int)).toNat

/-- An integer element function: width, signedness, the elements of src(0), src(1), src(2); the exact result and its flags. -/
abbrev IntFn := Nat → Bool → Int → Int → Int → Int × Nat

/-- One lane of an integer instruction, element by element (R106). -/
def intLane (t : Ty) (f : IntFn) (a b c : Nat) : Flagged :=
  (List.range t.elems).foldl (fun acc k =>
    let w := t.bits
    let el (x : Nat) : Int := readInt t.signed w (elemNat w k x)
    let r := f w t.signed (el a) (el b) (el c)
    (acc.1 + keep w r.1 * 2 ^ (w * k), acc.2 ||| r.2)) (0, 0)

/-- The unsigned value of an element read by R106. -/
def raw (w : Nat) (x : Int) : Nat := (x % (2 ^ w : Int)).toNat

def fAdd : IntFn := fun _ _ a b _ => (a + b, 0)
def fSub : IntFn := fun _ _ a b _ => (a - b, 0)
def fMul : IntFn := fun _ _ a b _ => (a * b, 0)
/-- The high half of the exact product (R111). -/
def fMulh : IntFn := fun w _ a b _ => ((a * b) / (2 ^ w : Int), 0)
def fMad : IntFn := fun _ _ a b c => (a * b + c, 0)
def fMin : IntFn := fun _ _ a b _ => (min a b, 0)
def fMax : IntFn := fun _ _ a b _ => (max a b, 0)
def fAbs : IntFn := fun _ _ a _ _ => (a.natAbs, 0)

/-- Quotient truncated toward zero; divisor 0 gives all ones (R113). -/
def fDiv : IntFn := fun _ _ a b _ => if b = 0 then (-1, fINT_DIV_ZERO) else (a.tdiv b, 0)
/-- Remainder with the dividend's sign; divisor 0 gives the dividend (R113). -/
def fRem : IntFn := fun _ _ a b _ => if b = 0 then (a, fINT_DIV_ZERO) else (a.tmod b, 0)

/-- `sat()` into the element range (R100). -/
def satInt (w : Nat) (sg : Bool) (r : Int) : Int × Nat :=
  let lo : Int := if sg then -(2 ^ (w - 1)) else 0
  let hi : Int := if sg then 2 ^ (w - 1) - 1 else 2 ^ w - 1
  if r < lo then (lo, fCONV_RANGE) else if hi < r then (hi, fCONV_RANGE) else (r, 0)

/-- VSAT: add for op 0, subtract for op 1 (R111). -/
def fSat (op : Nat) : IntFn := fun w sg a b _ => satInt w sg (if op = 0 then a + b else a - b)

def bitOp (g : Nat → Nat → Nat) : IntFn := fun w _ a b _ => (g (raw w a) (raw w b), 0)
def fAnd : IntFn := bitOp Nat.land
def fOr : IntFn := bitOp Nat.lor
def fXor : IntFn := bitOp Nat.xor
/-- a AND NOT b. -/
def fAndn : IntFn := fun w _ a b _ => (Nat.land (raw w a) (2 ^ w - 1 - raw w b), 0)

/-- Shifts take the whole unsigned count (R114). -/
def fShl : IntFn := fun w _ a b _ => (if raw w b < w then a * 2 ^ raw w b else 0, 0)
def fShr : IntFn := fun w _ a b _ => (if raw w b < w then raw w a / 2 ^ raw w b else 0, 0)
def fSar : IntFn := fun w _ a b _ =>
  let x := readInt true w (raw w a)
  (if raw w b < w then x / (2 ^ raw w b : Int) else if x < 0 then -1 else 0, 0)
def fRot : IntFn := fun w _ a b _ => let n := raw w b % w; (raw w a * 2 ^ n + raw w a / 2 ^ (w - n), 0)

/-- The 64-bit value hi:lo shifted right by the count modulo 64, bits [31:0] (R114). -/
def fFunnel : IntFn := fun w _ a b c => ((raw w a * 2 ^ 32 + raw w b) / 2 ^ (raw w c % 64), 0)

/-- Position and length of a field, clipped (R115). -/
def clipField (ctl : Nat) : Nat × Nat := let p := min (ctl % 256) 32; (p, min (ctl / 256 % 256) (32 - p))

def fBfe : IntFn := fun w sg a b _ =>
  let (p, n) := clipField (raw w b)
  let field := raw w a / 2 ^ p % 2 ^ n
  (if sg && n != 0 then readInt true n field else field, 0)

def fBfi : IntFn := fun w _ a b c =>
  let (p, n) := clipField (raw w c)
  let mask := (2 ^ n - 1) * 2 ^ p
  (Nat.lor (Nat.land (raw w a) (2 ^ w - 1 - mask % 2 ^ w)) (Nat.land (raw w b * 2 ^ p) mask), 0)

/-- The number of ones among the low `n` bits. -/
def popcount : Nat → Nat → Nat
  | 0, _ => 0
  | n + 1, x => x % 2 + popcount n (x / 2)

/-- The trailing zero bits of a `n`-bit value, `n` for zero. -/
def trailing : Nat → Nat → Nat
  | 0, _ => 0
  | n + 1, x => if x % 2 = 1 then 0 else 1 + trailing n (x / 2)

/-- The bits of a `n`-bit value in reverse order. -/
def reverseBits : Nat → Nat → Nat
  | 0, _ => 0
  | n + 1, x => x % 2 * 2 ^ n + reverseBits n (x / 2)

def fPopc : IntFn := fun w _ a _ _ => (popcount w (raw w a), 0)
def fClz : IntFn := fun w _ a _ _ => (trailing w (reverseBits w (raw w a)), 0)
def fCtz : IntFn := fun w _ a _ _ => (trailing w (raw w a), 0)
def fBrev : IntFn := fun w _ a _ _ => (reverseBits w (raw w a), 0)
def fMov : IntFn := fun _ _ a _ _ => (a, 0)

/-- VPERMB (R116): byte j by nibble j of the selector. -/
def fPermb : IntFn := fun w _ a b c =>
  let str := raw w b * 2 ^ 32 + raw w a
  let byte (j : Nat) : Nat :=
    let n := raw w c / 2 ^ (4 * j) % 16
    let x := str / 2 ^ (8 * (n % 8)) % 256
    if n < 8 then x else if 128 ≤ x then 255 else 0
  (byte 0 + 256 * byte 1 + 65536 * byte 2 + 16777216 * byte 3, 0)

/-- The condition codes of R117 on the elements as read. -/
def condHolds (code w : Nat) (a b : Int) : Bool :=
  match code with
  | 0 => a == b
  | 1 => a != b
  | 2 => a < b
  | 3 => a ≤ b
  | 4 => b < a
  | 5 => b ≤ a
  | 6 => Nat.land (raw w a) (raw w b) != 0
  | _ => Nat.land (raw w a) (raw w b) == 0

/-- The carry or borrow chain of R112: the result kept in `w` bits, and the carry out. -/
def addCarry (w x y cin : Nat) : Nat × Bool := ((x + y + cin) % 2 ^ w, 2 ^ w ≤ x + y + cin)
def subBorrow (w x y cin : Nat) : Nat × Bool := (keep w ((x : Int) - y - cin), x < y + cin)

/-- VSAD of one lane: the 32-bit accumulator plus the absolute differences (R111). -/
def sadLane (t : Ty) (a b c : Nat) : Nat :=
  (List.range t.elems).foldl (fun acc k =>
    acc + (readInt t.signed t.bits (elemNat t.bits k a) - readInt t.signed t.bits (elemNat t.bits k b)).natAbs) c % 2 ^ 32

end Sys2Proof.Machine
end

