-- ==== Sys2Proof/Machine/Queues.lean ====
section
/-! DEFINITION. What lies between the warps and the memory: the L1 data caches (R214, R230), stores and loads that have not performed
(R219, R228), the write queues of the memory ports (R207 to R211), posted host writes (R247, R248), acknowledgements, releases. -/
set_option autoImplicit false

namespace Sys2Proof.Machine

def Order.isRel : Order → Bool
  | .rel | .ar => true
  | _ => false

def Order.isAcq : Order → Bool
  | .acq | .ar => true
  | _ => false

/-- Scopes at which an acquire bumps the generation. -/
def wideScope : Scope → Bool
  | .part | .dom | .sys => true
  | _ => false

/-! ### The L1 data cache (R214, R230) -/

/-- Bump the generation of a cluster's L1; a wrap drops every line. (DEDUCED, log 20: unsafe.) -/
def State.bumpGen (s : State) (c : Nat) : State :=
  s.updCluster c (fun x => if x.gen = 65535 then { x with gen := 0, l1 := [] } else { x with gen := x.gen + 1 })

/-- The line with that key, if the L1 of cluster `c` holds it under the current generation. -/
def State.l1Line (s : State) (c key : Nat) : Option (List Byte) :=
  let x := (s.cluster c).l1.get key
  if x.held && x.gen == (s.cluster c).gen then some x.bytes else none

/-- Lines of 128 bytes in the 1 MiB of an L1 (R2). -/
def l1Lines : Nat := 8192

/-- Fill a line from its memory port unless it is held; a full L1 drops one first. (DESIGN CHOICE, log 43: unsafe.) -/
def State.fillLine (s : State) (c key : Nat) : State :=
  match s.l1Line c key with
  | some _ => s
  | none => s.updCluster c (fun x =>
      let kept := if x.l1.length < l1Lines then x.l1 else x.l1.drop 1
      { x with l1 := kept.set key { held := true, gen := x.gen, bytes := s.bytes (128 * key) 128 } })

/-- Drop a line of the L1 of cluster `c`. -/
def State.dropLine (s : State) (c key : Nat) : State := s.updCluster c (fun x => { x with l1 := x.l1.erase key })

/-- A line with one byte replaced. -/
def L1Line.put (x : L1Line) (i : Nat) (b : Byte) : L1Line := { x with bytes := x.bytes.set i b }

/-- A store updates the line if the L1 of cluster `c` holds it (R230). -/
def State.updateByte (s : State) (c loc : Nat) (b : Byte) : State :=
  if ((s.cluster c).l1.get (loc / 128)).held then
    s.updCluster c (fun x => { x with l1 := x.l1.upd (loc / 128) (fun y => y.put (loc % 128) b) })
  else s

/-- A byte as the L1 of cluster `c`, or its memory port, gives it. -/
def State.byteVia (s : State) (c : Nat) (cached : Bool) (loc : Nat) : Byte :=
  if cached then
    match s.l1Line c (loc / 128) with
    | some b => b.getD (loc % 128) 0#8
    | none => s.byte loc
  else s.byte loc

/-! ### Writing at a memory port (R230, R354) -/

/-- Write bytes one after the other, so that the last one to a location stands. -/
def State.setCells (s : State) : List (Nat × Byte) → State
  | [] => s
  | c :: r => (s.setByte c.1 c.2).setCells r

/-- The keys of `n` bytes among `ks` of which the cells write every byte. -/
def coveredKeys (n : Nat) (cells : List (Nat × Byte)) (ks : List Nat) : List Nat :=
  ks.filter (fun k => (List.range n).all (fun i => cells.any (fun c => c.1 == n * k + i)))

/-- A write that covers a poisoned line, or a poisoned unit of gang memory, whole cleans it (R354). (DEDUCED, log 23: unsafe.) -/
def State.cleanCells (s : State) (gang : Bool) (cells : List (Nat × Byte)) : State :=
  if gang then
    { s with poisonUnit := (coveredKeys 16 cells s.poisonUnit.keys).foldl (fun m k => Map.set m k false) s.poisonUnit }
  else
    { s with poisonLine := (coveredKeys 128 cells s.poisonLine.keys).foldl (fun m k => Map.set m k false) s.poisonLine }

/-- Bytes written at their memory port; the L1s of the clusters `cs` are updated. -/
def State.putCells (s : State) (cs : List Nat) (gang : Bool) (cells : List (Nat × Byte)) : State :=
  (cs.foldl (fun s c => cells.foldl (fun s x => s.updateByte c x.1 x.2) s) (s.setCells cells)).cleanCells gang cells

/-! ### The state of a line (R184, R185, R187) -/

/-- The line that a wait is parked on. -/
def Wait.onLine : Wait → Option Nat
  | .line k => some k
  | _ => none

/-- The lines that a warp is parked on, now or when its supervisor returns, and has not been woken by. -/
def Warp.parkedLines (w : Warp) : List Nat :=
  ([w.wait, w.rsS.wait].filterMap Wait.onLine).eraseDups.filter (fun k => !w.woken.any (fun x => x.1 == k))

/-- Lines have become present or failed: every warp parked on one is woken, and its check will read the state that woke it (R185, R187,
R233). -/
def State.wakeLines (s : State) (p : Nat → Bool) (st : LineState) : State :=
  (s.warps.keys).foldl (fun s u =>
    match (s.warp u).parkedLines.filter p with
    | [] => s
    | ks => s.updWarp u (fun w => { w with woken := w.woken ++ ks.map (fun k => (k, st)) })) s

/-- Set the state of a line. -/
def State.setLine (s : State) (key : Nat) (st : LineState) : State :=
  let s := { s with lines := s.lines.set key st }
  if st == .absent then s else s.wakeLines (· == key) st

/-- Write zero to a range of locations, clear its poison and make its lines present; every L1 drops its lines (R401, R410). -/
def State.wipeRange (s : State) (loc len : Nat) : State :=
  let out (n k : Nat) : Bool := n * k + n ≤ loc || loc + len ≤ n * k
  ({ s with
    mem := s.mem.keep (fun k _ => out 1 k)
    lines := s.lines.keep (fun k _ => out 128 k)
    poisonLine := s.poisonLine.keep (fun k _ => out 128 k)
    poisonUnit := s.poisonUnit.keep (fun k _ => out 16 k)
    clusters := s.clusters.mapVals (fun _ c => { c with l1 := c.l1.keep (fun k _ => out 128 k) }) }).wakeLines (fun k => !out 128 k) .present

/-- A PSET or PCLR performs: the L1s of the clusters `cs` keep no older state of the lines. -/
def State.setLines (s : State) (cs : List Nat) (xs : List (Nat × LineState)) : State :=
  xs.foldl (fun s x => cs.foldl (fun s c => s.dropLine c x.1) (s.setLine x.1 x.2)) s

/-! ### Acknowledgements (R211, R213) -/

/-- Expect the acknowledgement of a domain write. -/
def State.addAck (s : State) (x : Ack) : State :=
  let (n, s) := s.fresh
  { s with acks := s.acks.set n x }

/-- The ensemble rank of a domain address (R173). -/
def domRank (ea : Nat) : Nat := ea / 2 ^ 32 % 64

/-- The acknowledgement of one rank: its record would name the first lane that reached it (R183, R342). -/
def ackOf (num u ck : Nat) (atomic : Bool) (macc idx : Nat) (ranks : List (Nat × Nat)) (rank : Nat) : Ack :=
  let first := (ranks.find? (fun x => domRank x.2 == rank)).getD (0, 0)
  { live := true, warp := u, ck := ck, rank := rank, addr := first.2, info := memInfo 3 macc first.1 idx first.2, num := num, atomic := atomic }

/-- One acknowledgement for each rank that an operation wrote; the first carries the flags (R211). (DESIGN CHOICE, log 66: unsafe.) -/
def State.addAcks (s : State) (num u ck fl : Nat) (atomic : Bool) (macc idx : Nat) (ranks : List (Nat × Nat)) : State :=
  match (ranks.map (fun x => domRank x.2)).eraseDups with
  | [] => s
  | r :: rest => rest.foldl (fun s k => s.addAck (ackOf num u ck atomic macc idx ranks k)) (s.addAck { ackOf num u ck atomic macc idx ranks r with flags := fl })

/-! ### Stores that have not performed (R219, R228) -/

/-- Every byte of a held store that has not performed, lowest lane first. -/
def HeldStore.cells (h : HeldStore) : List (Nat × Byte) := h.units.flatten

/-- Does warp `u` of cluster `c` see the store? -/
def HeldStore.seenBy (h : HeldStore) (u c : Nat) : Bool := h.live && (h.warp == u || h.shown.contains c)

/-- Does it write one of the locations? -/
def HeldStore.touches (h : HeldStore) (locs : List Nat) : Bool := h.cells.any (fun x => locs.contains x.1)

/-- The byte that a held store gives a location: the highest lane's (R179). -/
def HeldStore.byteAt (h : HeldStore) (loc : Nat) : Option Byte := (h.cells.reverse.find? (fun x => x.1 == loc)).map (·.2)

/-- The state that a held PSET or PCLR gives a line: the highest lane's. -/
def HeldStore.lineAt (h : HeldStore) (key : Nat) : Option LineState := (h.pres.reverse.find? (fun x => x.1 == key)).map (·.2)

/-- Does a WIPE of warp `u` that has not acted yet cover the line? Its own warp finds the line present and clean (R222, R410). -/
def State.wipedFor (s : State) (u key : Nat) : Bool :=
  s.jobs.any (fun e => e.2.live && e.2.kind == .wipe && !e.2.wiped && e.2.warp == u && e.2.ranges.any (fun r => r.1 ≤ 128 * key && 128 * key < r.1 + r.2))

/-- The state of a line as warp `u` of cluster `c` sees it at its memory port: the one that woke the warp, present after a WIPE of its
own, a held PSET or PCLR that it sees, else the one that stands there (R185, R222, R233). -/
def State.lineFor (s : State) (u c key : Nat) : LineState :=
  match (s.warp u).woken.find? (fun x => x.1 == key) with
  | some x => x.2
  | none =>
    if s.wipedFor u key then .present
    else (s.heldStores.findSome? (fun e => if e.2.seenBy u c then e.2.lineAt key else none)).getD (s.lines.get key)

/-- The byte at a location in the held stores that warp `u` of cluster `c` sees. -/
def State.heldByte (s : State) (u c loc : Nat) : Option Byte :=
  s.heldStores.findSome? (fun e => if e.2.seenBy u c then e.2.byteAt loc else none)

/-- A byte as a load of warp `u` of cluster `c` reads it: a store that the warp sees comes before the L1 and the memory port. -/
def State.byteFor (s : State) (u c : Nat) (cached : Bool) (loc : Nat) : Byte :=
  (s.heldByte u c loc).getD (s.byteVia c cached loc)

/-- The places of a write in the table of debts: its bytes' and its lines'. -/
def debtKeys (locs keys : List Nat) : List Nat := locs.map (2 * ·) ++ keys.map (2 * · + 1)

/-- Has an event of warp `d.1` numbered below `d.2` not performed: a queued update, a held store, a host store that not every device read
sees, a WIPE's clearing, a load that may still take a later value? -/
def State.owing (s : State) (d : Nat × Nat) : Bool :=
  s.portOps.any (fun e => e.2.live && e.2.warp == d.1 && e.1 < d.2)
  || s.heldStores.any (fun e => e.2.live && e.2.warp == d.1 && e.1 < d.2)
  || s.hostStores.any (fun e => e.2.live && e.2.warp == d.1 && e.1 < d.2 && !e.2.published)
  || s.jobs.any (fun e => e.2.live && e.2.kind == .wipe && !e.2.wiped && e.2.warp == d.1 && e.1 < d.2)
  || (s.warp d.1).replies.any (fun e => e.1 < d.2 && !e.2.late.isEmpty)

/-- A write of warp `u` performs before earlier events of the warp: whoever reads it and then releases waits for those (R227). -/
def State.leaveDebt (s : State) (u n : Nat) (ks : List Nat) : State :=
  if s.owing (u, n) then
    { s with debts := ks.foldl (fun m k => m.upd k (fun l => (u, n) :: l.filter (fun d => s.owing d && !(d.1 == u && d.2 ≤ n)))) s.debts }
  else s

/-- A held store performs in part: bytes, and states of lines. -/
def State.performPart (s : State) (n : Nat) (h : HeldStore) (cells : List (Nat × Byte)) (pres : List (Nat × LineState)) : State :=
  ((s.putCells (h.cluster :: h.shown) h.gang cells).setLines (h.cluster :: h.shown) pres).leaveDebt h.warp n (debtKeys (cells.map (·.1)) (pres.map (·.1)))

/-- A held store performs whole. -/
def State.performHeld (s : State) (n : Nat) : State :=
  let h := s.heldStores.get n
  (({ s with heldStores := s.heldStores.erase n }).performPart n h h.cells h.pres).addAcks n h.warp h.ck 0 false (if h.pres.isEmpty then 1 else 3) h.idx h.ranks

/-- Two lists of bytes name a common location. -/
def cellsMeet (a b : List (Nat × Byte)) : Bool := a.any (fun x => b.any (fun y => x.1 == y.1))

/-- Two held stores write a common byte or a common line's state, or both lie on TSO pages and come from one warp (R222, R239). -/
def HeldStore.meets (x y : HeldStore) : Bool :=
  cellsMeet x.cells y.cells || x.pres.any (fun a => y.pres.any (fun b => a.1 == b.1)) || (x.tso && y.tso && x.warp == y.warp)

/-- The listed held stores and the older ones that must perform before one of them, oldest first. -/
def State.heldBefore (s : State) (ids : List Nat) : List Nat :=
  (s.heldStores.reverse).foldl (fun (acc : List Nat) e =>
    if e.2.live && (ids.contains e.1 || acc.any (fun k => (s.heldStores.get k).meets e.2)) then e.1 :: acc else acc) []

/-- The listed held stores perform. -/
def State.drainIds (s : State) (ids : List Nat) : State := (s.heldBefore ids).foldl State.performHeld s

/-- The stores of the table that satisfy `p` perform. -/
def State.drainHeld (s : State) (p : HeldStore → Bool) : State := s.drainIds ((s.heldStores.filter (fun e => e.2.live && p e.2)).map (·.1))

/-- No older held store has to perform before it. -/
def State.heldFirst (s : State) (n : Nat) : Bool :=
  (s.heldStores.get n).live && s.heldStores.all (fun e => !(e.2.live && e.1 < n && e.2.meets (s.heldStores.get n)))

/-- May its accesses perform apart: none of them lies in a poisoned line or unit, which the store may clean as a whole (R354). -/
def State.heldSplits (s : State) (n : Nat) : Bool :=
  (s.heldStores.get n).cells.all (fun x => !s.poisonLine.get (x.1 / 128) && !s.poisonUnit.get (x.1 / 16))

/-- May its access number `k` perform before the others: no lower lane writes a byte of it (R179)? -/
def State.unitFirst (s : State) (n k : Nat) : Bool :=
  let us := (s.heldStores.get n).units
  s.heldFirst n && s.heldSplits n && k < us.length && 1 < us.length
  && (us.take k).all (fun v => !cellsMeet v (us.getD k []))

/-- One access of a held store performs. -/
def State.performUnit (s : State) (n k : Nat) : State :=
  if s.unitFirst n k then
    let h := s.heldStores.get n
    ({ s with heldStores := s.heldStores.set n { h with units := h.units.eraseIdx k } }).performPart n h (h.units.getD k []) []
  else s

/-- May the change of line `k` by a held PSET or PCLR go before those of its other lanes? -/
def State.lineFirst (s : State) (n k : Nat) : Bool :=
  let ps := (s.heldStores.get n).pres
  s.heldFirst n && k < ps.length && 1 < ps.length && (ps.take k).all (fun x => x.1 != (ps.getD k (0, .present)).1)

/-- One lane of a held PSET or PCLR performs. -/
def State.performLine (s : State) (n k : Nat) : State :=
  if s.lineFirst n k then
    let h := s.heldStores.get n
    ({ s with heldStores := s.heldStores.set n { h with pres := h.pres.eraseIdx k } }).performPart n h [] ((h.pres[k]?).toList)
  else s

/-- May the warps of cluster `c` see a held store before it performs? Not on a TSO page, and not beside another store to a byte
of it. -/
def State.canShow (s : State) (n c : Nat) : Bool :=
  let h := s.heldStores.get n
  h.live && !h.tso && !h.shown.contains c
  && s.heldStores.all (fun e => !(e.2.live && e.1 != n && e.2.meets h))

def State.showHeld (s : State) (n c : Nat) : State :=
  if s.canShow n c then { s with heldStores := s.heldStores.upd n (fun h => { h with shown := h.shown ++ [c] }) } else s

/-! ### Loads whose accesses nothing has ordered yet (R219, R228) -/

/-- A warp reads: what the writes that it reads left owed it must wait for at its next release (R227). -/
def State.takeDebt (s : State) (u : Nat) (locs keys : List Nat) : State :=
  if s.debts.isEmpty && s.heldStores.isEmpty then s
  else
    let c := quadCluster (s.warp u).quad
    let seen := s.heldStores.filterMap (fun e =>
      if e.2.seenBy u c && (locs.any (fun l => (e.2.byteAt l).isSome) || keys.any (fun k => (e.2.lineAt k).isSome)) then some (e.2.warp, e.1) else none)
    match ((((debtKeys locs keys).flatMap s.debts.get) ++ seen).filter (fun d => d.1 != u && s.owing d)).eraseDups with
    | [] => s
    | ds => s.updWarp u (fun w => { w with owes := (w.owes ++ ds).eraseDups })

/-- Every value that the warp's pending loads have taken stands from here on. -/
def Warp.freeze (w : Warp) : Warp := { w with replies := w.replies.mapVals (fun _ r => { r with late := [], acq := false, bump := false }) }

/-- The values of a warp's pending loads stand, and each acquire among them bumps the L1 (R228, R230). -/
def State.freeze (s : State) (u : Nat) : State :=
  if (s.warp u).replies.all (fun r => r.2.late.isEmpty && !r.2.acq && !r.2.bump) then s
  else
    ((s.warp u).replies.filter (fun r => r.2.bump)).foldl (fun s _ => s.bumpGen (quadCluster (s.warp u).quad)) (s.updWarp u Warp.freeze)

/-- An acquire goes before every later event of its warp (R225). -/
def State.settleAcq (s : State) (u : Nat) : State := if (s.warp u).replies.any (fun r => r.2.acq) then s.freeze u else s

/-- A pending load stands before its value is read in a latch. -/
def State.freezeLatch (s : State) (u : Nat) (i : Instr) : State :=
  if i.latchReads.any (fun k => match (s.warp u).step.lrep.getD k none with
      | some id => !((s.warp u).replies.get id).late.isEmpty
      | none => false) then s.freeze u else s

/-- The memory that an operation in a matrix queue reads. -/
def MatOp.src : MatOp → Option MatSrc
  | .mma j => some j.b
  | .load _ _ _ x => some x
  | _ => none

/-- The operation with other memory bytes. -/
def MatOp.withSrc (o : MatOp) (x : MatSrc) : MatOp :=
  match o with
  | .mma j => .mma { j with b := x }
  | .load k m f _ => .load k m f x
  | o => o

/-- The 16-byte units of memory that an operation may still read anew. -/
def MatSrc.units (x : MatSrc) : List Nat := x.late.flatMap (fun l => l.locs.map (· / 16))

/-- Only the units `us` may still be read anew. -/
def MatSrc.keepUnits (x : MatSrc) (us : List Nat) : MatSrc := { x with late := x.late.filter (fun l => l.locs.all (fun a => us.contains (a / 16))) }

/-- A function of the memory of each queued matrix operation. -/
def State.mapSrc (s : State) (f : MatSrc → MatSrc) : State :=
  { s with quads := s.quads.mapVals (fun _ q => { q with queue := q.queue.map (fun o => match o.src with
      | some x => o.withSrc (f x)
      | none => o) }) }

/-- Before a store of warp `u` to locations: what its queued matrix operations have read of their 16-byte units stands (R158). -/
def State.freezeMat (s : State) (u : Nat) (locs : List Nat) : State :=
  s.mapSrc (fun x => if x.warp == u then { x with late := x.late.filter (fun y => !y.locs.any (fun a => locs.any (fun b => a / 16 == b / 16))) } else x)

/-- Does an access read one of the locations? -/
def LateUnit.touches (x : LateUnit) (locs : List Nat) : Bool := x.locs.any locs.contains

/-- What a pending load has taken of the locations stands. -/
def Reply.settle (r : Reply) (locs : List Nat) : Reply := { r with late := r.late.filter (fun x => !x.touches locs) }

/-! ### The write queues of the memory ports (R207 to R211) -/

/-- Width of an operation in bytes (R205). -/
def aopBytes (a : BitVec 4) : Nat := if aop64 a then 8 else 4

/-- The exact sum of the old value and the terms of a group, rounded once in each element (R209). -/
def floatGroup (t : Ty) (old : Nat) (terms : List Nat) : Flagged :=
  (List.range t.elems).foldl (fun acc k =>
    let el (x : Nat) : XReal := decodeVal (Fmt.ofTy t) (elemNat t.bits k x)
    let vals := el old :: terms.map el
    let x := xsum .rne vals
    let r := round (Fmt.ofTy t) .rne false x.1
    (acc.1 + r.1 * 2 ^ (t.bits * k), acc.2 ||| x.2 ||| r.2 ||| vals.foldl (fun a v => a ||| sigFlag v) 0)) (0, 0)

/-- The new value of one update (R205). -/
def aopNew (a : BitVec 4) (old d cmp : Nat) : Flagged :=
  match a.toNat with
  | 0 => ((old + d) % 2 ^ 32, 0)
  | 1 => ((old + d) % 2 ^ 64, 0)
  | 2 => (if readInt true 32 d < readInt true 32 old then d else old, 0)
  | 3 => (if readInt true 32 old < readInt true 32 d then d else old, 0)
  | 4 => (min old d, 0)
  | 5 => (max old d, 0)
  | 6 => (Nat.land old d, 0)
  | 7 => (Nat.lor old d, 0)
  | 8 => (Nat.xor old d, 0)
  | 0x9 | 0xB => (d, 0)
  | 0xA | 0xC => (if old = cmp then d else old, 0)
  | _ => floatGroup (aopTy a) old [d]

/-- The new value after a group of terms: one rounding of the exact sum for a floating add (R210). -/
def aopGroup (a : BitVec 4) (old : Nat) (terms : List Nat) : Flagged :=
  if aopFloat a then floatGroup (aopTy a) old terms else terms.foldl (fun (y : Flagged) d => ((aopNew a y.1 d 0).1, 0)) (old, 0)

/-- The lines that an operation's lanes touch. -/
def PortOp.keys (x : PortOp) : List Nat := (x.lanes.map (fun l => l.loc / 128)).eraseDups

/-- Does it update one of the locations? -/
def PortOp.touches (x : PortOp) (locs : List Nat) : Bool := x.lanes.any (fun l => locs.any (fun a => l.loc ≤ a && a < l.loc + aopBytes x.aop))

/-- The remote-flag register of context `ck` at memory port `n`, and at the fabric (R211). -/
def remoteKey (ck n : Nat) : Nat := 16 * ck + n
def fabricPort : Nat := 8

/-- The memory port of a scratchpad location: that of the section in which its page is placed (R397). -/
def State.portOf (s : State) (loc : Nat) : Nat := s.placed.get (loc / 65536) - 1

/-- A remote-flag register takes the flags of an update (R211). -/
def State.orRemote (s : State) (ck n fl : Nat) : State :=
  if fl % 128 = 0 then s else { s with remoteFlags := s.remoteFlags.upd (remoteKey ck n) (fun x => Nat.lor x (fl % 128)) }

/-- The OR of a context's remote-flag registers (R213). -/
def State.remoteOr (s : State) (ck : Nat) : Nat := (List.range 9).foldl (fun a n => Nat.lor a (s.remoteFlags.get (remoteKey ck n))) 0

/-- The registers of a context cleared. -/
def State.clearRemote (s : State) (ck : Nat) : State :=
  { s with remoteFlags := (List.range 9).foldl (fun m n => m.set (remoteKey ck n) 0) s.remoteFlags }

/-- The bytes of a location's update. -/
def aopLocs (a : BitVec 4) (loc : Nat) : List Nat := (List.range (aopBytes a)).map (loc + ·)

/-- A write of operation `id` at a memory port, and in the L1 of its cluster and of the one that its warp is on now (R222, R230). -/
def State.portWrite (s : State) (id : Nat) (x : PortOp) (loc v : Nat) : State :=
  (s.putCells [x.cluster, quadCluster (s.warp x.warp).quad] (x.space == 1) (((natBytes (aopBytes x.aop) v).zipIdx).map (fun b => (loc + b.2, b.1)))).leaveDebt
    x.warp id (debtKeys (aopLocs x.aop loc) [])

/-- A reply value with one lane set. -/
def Lanes.put (v : Lanes) (l : Nat) (x : Word) : Lanes := Lanes.ofFn (fun k => if k = l then x else v.at k)

/-- The lanes of a reply that have come back, as its registers. -/
def Reply.take (y : Reply) (l old : Nat) : Reply :=
  { y with vals := [Lanes.put (y.vals.getD 0 []) l (BitVec.ofNat 32 old), Lanes.put (y.vals.getD 1 []) l (BitVec.ofNat 32 (old / 2 ^ 32))] }

/-- Change a reply that is still due. -/
def State.updReply (s : State) (u id : Nat) (f : Reply → Reply) : State :=
  s.updWarp u (fun w => if w.replies.any (fun e => e.1 == id) then { w with replies := w.replies.upd id f } else w)

/-- The free value of lane `l` at operation `op` of a warp's step: it depends on the warp's place in its program alone (R3). (DESIGN CHOICE, log 4: safe.) -/
def State.freeWord (s : State) (w : Warp) (op l : Nat) : Word :=
  Config.freeWord (((((s.gang w.gang).gangId * 64 + w.wid) * 2 ^ 32 + w.sp.steps) * 8 + op) * 32 + l)

/-- Fill the latches of the step in progress that hold reply `id` (R25); `v` gives the value for the number of its operation. -/
def Warp.arrive (w : Warp) (id : Nat) (v : Nat → Lanes) : Warp :=
  { w with step := { w.step with latches := (w.step.latches.zipIdx).map (fun x => if w.step.lrep.getD x.2 none = some id then some (v (w.step.idx - 1 - x.2)) else x.1) } }

/-- The value of a reply in a latch: free in the lanes that failed, where no value has come. (DESIGN CHOICE, log 71: unsafe.) -/
def State.latchValue (s : State) (w : Warp) (r : Reply) (op : Nat) : Lanes :=
  if r.fails.isEmpty then r.vals.headD [] else Lanes.ofFn (fun l => if r.fails.get l != 0 then s.freeWord w op l else Lanes.at (r.vals.headD []) l)

/-- A reply's value has been formed: it may be written, and the latches that hold it have it. -/
def State.reach (s : State) (u id : Nat) (f : Reply → Reply) : State :=
  (s.updReply u id (fun r => { f r with have_ := true })).updWarp u (fun w =>
    if w.replies.any (fun e => e.1 == id) then w.arrive id (s.latchValue w (w.replies.get id)) else w)

/-- The lanes `m` of a reply fail with a cause, but for those that have failed already (R350). -/
def Reply.failIn (r : Reply) (cause : Nat) (m : Mask) : Reply :=
  { r with fails := m.lanes.foldl (fun f l => if f.get l = 0 then f.set l cause else f) r.fails }

/-- The lanes of `m` that fail with the cause with which the lowest failing one does, and that cause; 0 for none. -/
def Reply.failing (r : Reply) (m : Mask) : Nat × Mask :=
  let c := ((m.lanes.find? (fun l => r.fails.get l != 0)).map r.fails.get).getD 0
  (c, if c = 0 then 0#32 else Mask.ofFn (fun l => m.has l && r.fails.get l == c))

/-- A reply fails in the lanes `m` (R350). -/
def State.failReply (s : State) (u id cause : Nat) (m : Mask) : State := s.reach u id (fun r => r.failIn cause m)

/-- An atomic whose lanes have all performed: its acknowledgements, its reply. A host that completes no AtomicOps answers with
Unsupported Request (R212). -/
def State.endAtomic (s : State) (id : Nat) : State :=
  let x := s.portOps.get id
  let denied := x.space = 4 && !s.hostAtomics
  let s := { s with portOps := s.portOps.erase id }
  let s := if x.bump then s.bumpGen x.cluster else s
  let s := s.addAcks id x.warp x.ck x.flags true 2 x.idx x.ranks
  match x.reply with
  | none => s
  | some r => s.reach x.warp r (fun y =>
      let y := { y with flags := BitVec.ofNat 32 (x.flags % 128) }
      if denied then y.failIn cATOMIC_UNSUPPORTED Mask.full else y)

/-- One lane of an atomic performs: one update, its old value into the reply (R207). -/
def State.atomicUpdate (s : State) (id : Nat) : State :=
  let x := s.portOps.get id
  match x.lanes with
  | [] => s
  | l :: rest =>
    let old := s.read l.loc (aopBytes x.aop)
    let denied := x.space = 4 && !s.hostAtomics
    let v := if denied then (old, 0) else aopNew x.aop old l.data l.cmp
    let s := s.takeDebt x.warp (aopLocs x.aop l.loc) []
    let s := if denied then s else s.portWrite id x l.loc v.1
    let s := if x.space = 2 then s.orRemote x.ck (s.portOf l.loc) v.2 else s
    let s := { s with portOps := s.portOps.set id { x with lanes := rest, flags := x.flags ||| v.2 } }
    match x.reply with
    | none => s
    | some r => s.updReply x.warp r (fun y => y.take l.lane old)

/-- The next lane of an atomic performs (R207, R219). -/
def State.atomicLane (s : State) (id : Nat) : State :=
  let s := s.atomicUpdate id
  if (s.portOps.get id).lanes.isEmpty then s.endAtomic id else s

/-- Every lane of an atomic that is left performs, in increasing order. (DEDUCED, log 19: unsafe.) -/
def State.doAtomic (s : State) (id : Nat) : State :=
  ((s.portOps.get id).lanes.foldl (fun s _ => s.atomicUpdate id) s).endAtomic id

/-- The terms of reductions in a write queue: operation and lane. -/
abbrev Term := Nat × Nat

/-- The lane operation of a term. -/
def State.termLane (s : State) (t : Term) : Option LaneOp := (s.portOps.get t.1).lanes.find? (fun l => l.lane == t.2)

/-- A reduction whose lanes have all performed leaves the queue; its domain flags go with the acknowledgement (R211). -/
def State.endReduction (s : State) (id : Nat) : State :=
  let x := s.portOps.get id
  if x.live && x.reply.isNone && x.lanes.isEmpty then
    ({ s with portOps := s.portOps.erase id }).addAcks id x.warp x.ck x.flags false 2 x.idx x.ranks
  else s

/-- The terms at one location perform as one group (R210). -/
def State.doTerms (s : State) (loc : Nat) (terms : List Term) : State :=
  match terms with
  | [] => s
  | t :: _ =>
    let x := s.portOps.get t.1
    let ids := (terms.map (·.1)).eraseDups
    let v := aopGroup x.aop (s.read loc (aopBytes x.aop)) ((terms.filterMap s.termLane).map (·.data))
    let s := ids.foldl (fun s i => s.portWrite i (s.portOps.get i) loc v.1) s
    let s := ids.foldl (fun s i =>
      let y := s.portOps.get i
      let s := if y.space = 2 then s.orRemote y.ck (s.portOf loc) v.2 else s
      { s with portOps := s.portOps.set i { y with lanes := y.lanes.filter (fun l => !terms.contains (i, l.lane)), flags := y.flags ||| v.2 } }) s
    ids.foldl State.endReduction s

/-- The terms of reductions at one location. -/
def State.termsAt (s : State) (ids : List Nat) (loc : Nat) : List Term :=
  ids.flatMap (fun i => ((s.portOps.get i).lanes.filter (fun l => l.loc == loc)).map (fun l => (i, l.lane)))

/-- Perform reductions together: at each location the terms of all of them form one group (R210). (DESIGN CHOICE, log 26: safe.) -/
def State.doReductions (s : State) (ids : List Nat) : State :=
  ids.foldl State.endReduction
    (((ids.flatMap (fun i => (s.portOps.get i).lanes.map (·.loc))).eraseDups).foldl (fun s loc => s.doTerms loc (s.termsAt ids loc)) s)

/-- Perform one queued operation. -/
def State.doPortOp (s : State) (id : Nat) : State :=
  if (s.portOps.get id).reply.isSome then s.doAtomic id else s.doReductions [id]

/-- Do the bytes of two lane operations meet? -/
def laneMeets (a b : BitVec 4) (x y : LaneOp) : Bool := x.loc < y.loc + aopBytes b && y.loc < x.loc + aopBytes a

/-- Do two queued operations update a common byte? -/
def PortOp.meets (x y : PortOp) : Bool := x.lanes.any (fun a => y.lanes.any (laneMeets x.aop y.aop a))

/-- May the operation perform: no earlier one of its warp updates a byte of it (R210, R222)? -/
def State.portFirst (s : State) (id : Nat) : Bool :=
  let x := s.portOps.get id
  x.live && s.portOps.all (fun e => !(e.2.live && e.1 < id && e.2.warp == x.warp && e.2.meets x))

/-- May these terms perform as one group now (R207, R210): they name one location, and no operation that their warp issued before one of
them, nor a lower lane of the same one, has an update of its bytes outside the group? (DEDUCED, log 19: unsafe.) -/
def State.groupOk (s : State) (terms : List Term) : Bool :=
  match terms.head?.bind s.termLane with
  | none => false
  | some l0 =>
    let a := (s.portOps.get (terms.headD (0, 0)).1).aop
    terms.eraseDups.length == terms.length
    && terms.all (fun t =>
      let x := s.portOps.get t.1
      x.live && x.reply.isNone && x.aop == a && ((s.termLane t).map (·.loc)) == some l0.loc
      && s.portOps.all (fun e => !(e.2.live && e.1 ≤ t.1 && e.2.warp == x.warp
          && e.2.lanes.any (fun l => (e.1 < t.1 || l.lane < t.2) && laneMeets e.2.aop a l l0 && !terms.contains (e.1, l.lane)))))

/-- A group of terms performs. -/
def State.termGroup (s : State) (terms : List Term) : State :=
  if s.groupOk terms then s.doTerms (((terms.head?.bind s.termLane).map (·.loc)).getD 0) terms else s

/-- May the next lane of a queued atomic perform apart from the others? -/
def State.laneFirst (s : State) (id : Nat) : Bool := s.portFirst id && (s.portOps.get id).reply.isSome && 1 < (s.portOps.get id).lanes.length

/-- The operations of a warp that wait in write queues, oldest first. -/
def State.ownOps (s : State) (u : Nat) : List Nat := (s.portOps.filter (fun e => e.2.live && e.2.warp == u)).map (·.1)

/-- Does an atomic or reduction of the warp wait in a write queue? -/
def State.pendingOps (s : State) (u : Nat) : Bool := s.portOps.any (fun e => e.2.live && e.2.warp == u)

/-- Perform the listed queued operations and the earlier ones of their warps that update a byte of theirs, oldest first (R222). (DEDUCED, log 19: unsafe.) -/
def State.drainTo (s : State) (ids : List Nat) : State :=
  ((s.portOps.reverse).foldl (fun (acc : List Nat) e =>
    if e.2.live && (ids.contains e.1 || acc.any (fun k => (s.portOps.get k).warp == e.2.warp && (s.portOps.get k).meets e.2)) then e.1 :: acc else acc) []).foldl
    State.doPortOp s

/-! ### Posted host writes (R174, R247, R248) -/

/-- A posted host store lands in host memory. (DESIGN CHOICE, log 67: unsafe.) -/
def State.hostLand (s : State) (n : Nat) : State :=
  let x := s.hostStores.get n
  let s : State := { s with hostStores := s.hostStores.erase n }
  (s.setCells x.cells).leaveDebt x.warp n (debtKeys (x.cells.map (fun c => c.1)) [])

/-- Must host store `x` land before the later one `y`: they write a common byte, or travel on the ordered stream of one function (R249)? -/
def HostStore.before (x y : HostStore) : Bool :=
  x.live && ((x.tso && y.tso && x.ck / 64 == y.ck / 64) || cellsMeet x.cells y.cells)

/-- The listed host stores and the older ones that go before them land, oldest first (R248, R249). -/
def State.landTo (s : State) (ids : List Nat) : State :=
  ((s.hostStores.reverse).foldl (fun (acc : List Nat) e =>
    if e.2.live && (ids.contains e.1 || acc.any (fun k => e.2.before (s.hostStores.get k))) then e.1 :: acc else acc) []).foldl State.hostLand s

/-- The numbers of the host stores on their way that satisfy `p`. -/
def State.hostWhich (s : State) (p : Nat → HostStore → Bool) : List Nat := (s.hostStores.filter (fun e => e.2.live && p e.1 e.2)).map (·.1)

/-- The host stores of a warp on their way, oldest first. -/
def State.ownHost (s : State) (u : Nat) : List Nat := s.hostWhich (fun _ x => x.warp == u)

/-- The host stores that a device read of warp `u` must see: those that a release of its scope has followed (R226, R228). -/
def HostStore.seenBy (x : HostStore) (g : Nat) : Bool := x.published || x.gangs.contains g

/-- Their numbers. -/
def State.seenHost (s : State) (u : Nat) : List Nat := s.hostWhich (fun _ x => x.seenBy (s.warp u).gang)

/-- Before warp `u` reads host memory at locations: the stores that it must see have landed, and its own to those locations (R222). -/
def State.landSeen (s : State) (u : Nat) (locs : List Nat) : State :=
  s.landTo (s.hostWhich (fun _ x => x.seenBy (s.warp u).gang || (x.warp == u && x.cells.any (fun c => locs.contains c.1))))

/-- A release follows host stores: every later device read of host memory sees them, or every one of a gang. -/
def State.publish (s : State) (gang : Option Nat) (p : Nat → HostStore → Bool) : State :=
  if s.hostStores.all (fun e => !(p e.1 e.2 && !e.2.published)) then s
  else { s with hostStores := s.hostStores.mapVals (fun n x => if p n x then (match gang with
      | none => { x with published := true }
      | some g => { x with gangs := g :: x.gangs.filter (· != g) }) else x) }

/-! ### Wipes (R410) -/

/-- The bytes of a WIPE are cleared: writes of its warp, which its status follows. -/
def State.wipeNow (s : State) (id : Nat) : State :=
  let j := s.jobs.get id
  (j.ranges.foldl (fun (s : State) r => s.wipeRange r.1 r.2) { s with jobs := s.jobs.set id { j with wiped := true } }).leaveDebt j.warp id
    (debtKeys [] (j.ranges.flatMap (fun r => (List.range ((r.2 + 127) / 128)).map (r.1 / 128 + ·))))

/-- The WIPEs of warp `u` that are not cleared and satisfy `p`. -/
def State.ownWipes (s : State) (u : Nat) (p : Nat → Job → Bool) : List Nat :=
  (s.jobs.filter (fun e => e.2.live && e.2.kind == .wipe && !e.2.wiped && e.2.warp == u && p e.1 e.2)).map (·.1)

/-- Does a WIPE cover one of the locations? -/
def Job.touches (j : Job) (locs : List Nat) : Bool := j.ranges.any (fun r => locs.any (fun a => r.1 ≤ a && a < r.1 + r.2))

/-- The WIPEs of warp `u` that cover one of the locations act. -/
def State.settleWipes (s : State) (u : Nat) (locs : List Nat) : State := (s.ownWipes u (fun _ j => j.touches locs)).foldl State.wipeNow s

/-! ### Order (R222, R225 to R229) -/

/-- The held stores of warp `v` numbered below `n`. -/
def State.heldBelow (s : State) (v n : Nat) : List Nat := (s.heldStores.filter (fun e => e.2.live && e.2.warp == v && e.1 < n)).map (·.1)

/-- A held store is in sight of a cluster: shown there, or performed where it cannot be. -/
def State.bringSight (s : State) (c n : Nat) : State :=
  if (s.heldStores.get n).seenBy (s.heldStores.get n).warp c && ((s.heldStores.get n).shown.contains c) then s
  else if s.canShow n c then s.showHeld n c else s.drainIds [n]

/-- The events of warp `v` numbered below `n` have performed: for every party, or, with a gang and its cluster, for that gang; host stores
are then seen by every device read of those parties. -/
def State.settleBelow (s : State) (gang : Option (Nat × Nat)) (v n : Nat) : State :=
  let s := (s.ownWipes v (fun k _ => k < n)).foldl State.wipeNow (s.drainTo ((s.ownOps v).filter (· < n)))
  let s := match gang with
    | some g => (s.heldBelow v n).foldl (fun (s : State) k => s.bringSight g.2 k) s
    | none => s.drainIds (s.heldBelow v n)
  (s.freeze v).publish (gang.map (·.1)) (fun k x => x.live && x.warp == v && k < n)

/-- Before a release of warp `u`, at its scope: its events numbered below `n`, and those that the writes it has read wait for, have
performed; at part scope and wider also the writes that it sees ahead of other clusters; at sys scope the host has every write that a
device read sees (R225, R226, R227, R248). At warp scope its own lanes see everything at once. (DEDUCED, log 19: unsafe.) -/
def State.release (s : State) (u n : Nat) (sc : Scope) : State :=
  let w := s.warp u
  let c := quadCluster w.quad
  match sc with
  | .warp => s
  | .gang => ((u, n) :: w.owes.filter s.owing).foldl (fun (s : State) d => s.settleBelow (some (w.gang, c)) d.1 d.2) s
  | _ =>
    let s := ((u, n) :: w.owes.filter s.owing).foldl (fun (s : State) d => s.settleBelow none d.1 d.2) s
    let s := (s.drainHeld (fun h => h.warp != u && h.seenBy u c)).publish none (fun _ x => x.live && x.seenBy w.gang)
    let s := if w.owes.isEmpty then s else s.updWarp u (fun w => { w with owes := [] })
    if sc == .sys then s.landTo (s.seenHost u) else s

/-- Before an access of a warp to locations: its own pending loads of them have their values (R222). -/
def State.settleLate (s : State) (u : Nat) (locs : List Nat) : State :=
  if (s.warp u).replies.any (fun r => r.2.late.any (fun x => x.touches locs)) then
    s.updWarp u (fun w => { w with replies := w.replies.mapVals (fun _ r => r.settle locs) })
  else s

/-- Before an update of a warp at locations: the stores there that it sees have performed too, and its queued matrix operations have read
them. -/
def State.settleHeld (s : State) (u : Nat) (locs : List Nat) : State :=
  ((s.drainHeld (fun h => h.seenBy u (quadCluster (s.warp u).quad) && h.touches locs)).settleLate u locs).freezeMat u locs

/-- Before a load or store of a warp at locations its own queued updates and WIPEs of them have performed (R222, R410). (DEDUCED, log 19: unsafe.) -/
def State.settleOwn (s : State) (u : Nat) (locs : List Nat) : State :=
  (s.drainTo ((s.portOps.filter (fun e => e.2.live && e.2.warp == u && e.2.touches locs)).map (·.1))).settleWipes u locs

/-- Before an engine of a warp reads or writes for it: every write of the warp, and every one that it sees, has performed (R231). -/
def State.settleEngine (s : State) (u : Nat) : State :=
  (((s.ownWipes u (fun _ _ => true)).foldl State.wipeNow (s.drainTo (s.ownOps u))).drainHeld (fun h => h.seenBy u (quadCluster (s.warp u).quad))).freeze u

/-- The atomics of warp `u` numbered below `n` that have not read. -/
def State.readsBelow (s : State) (u n : Nat) : List Nat := (s.ownOps u).filter (fun k => k < n && (s.portOps.get k).reply.isSome)

/-- The fences of the step in progress act before its later accesses: a release among them comes first, and so do the reads before an
acquire (R225, R227, R229). -/
def State.fenced (s : State) (u : Nat) : State :=
  (s.warp u).step.buf.foldl (fun s b => match b with
    | .fence ord sc _ _ n =>
      let s := if Order.isRel ord then s.release u n sc else s
      if Order.isAcq ord then (s.drainTo (s.readsBelow u n)).freeze u else s
    | _ => s) s

/-- After an acquiring fence of the step in progress no line of the L1 is read that was there before: its bump comes at the commit
(R32, R213, R230). -/
def Warp.pastAcq (w : Warp) : Bool := w.step.buf.any (fun b => match b with
  | .fence ord sc _ _ _ => Order.isAcq ord && wideScope sc
  | _ => false)

/-- Does the warp wait for an acquiring atomic or heap operation, which goes before every later event (R225, R230)? -/
def State.acqPending (s : State) (u : Nat) : Bool :=
  s.portOps.any (fun e => e.2.live && e.2.warp == u && e.2.acq)
  || s.heapQ.any (fun e => e.2.any (fun o => o.warp == u && (o.kind == .pop || o.kind == .sum || o.kind == .drain)))

end Sys2Proof.Machine
end

