-- ==== Sys2Proof/Machine/Traps.lean ====
section
/-! DEFINITION. Taking an exception and returning from one (R341 to R347), the debug stop (R363 to R367), and the settling of
named barriers (R269 to R274), whose breaks are exceptions of the waiters. -/
set_option autoImplicit false

namespace Sys2Proof.Machine

/-! ### Replay (R374) -/

/-- A replay gang logs an input at its count: kind 1 a value read, 2 a wait's end, 3 a byte arrival, 4 a poison tag. An entry takes a
16-byte header and its data, padded to 16 bytes. -/
def State.logInput (s : State) (g kind warp : Nat) (lanes : Mask) (data : List Byte) : State :=
  let x := s.gang g
  if (s.launch x.launch).replay && x.rerun.isNone then
    { s.setGang g { x with logBytes := x.logBytes + 16 + (data.length + 15) / 16 * 16 } with
      logs := s.logs.upd g (fun l => l ++ [{ interval := x.interval, count := x.count, kind := kind, warp := warp, lanes := lanes, data := data }]) }
  else s

/-- The gang of warp `u` logs a value that the warp read, or the end of one of its waits. -/
def State.logRead (s : State) (u : Nat) (lanes : Mask) (data : List Byte) : State := s.logInput (s.warp u).gang 1 (s.warp u).wid lanes data
def State.logWake (s : State) (u : Nat) (data : List Byte) : State := s.logInput (s.warp u).gang 2 (s.warp u).wid (s.warp u).unexited data

/-! ### Debug events and stops (R364 to R367) -/

/-- Is a debugger attached to the context: does a session hold its debug right (R360)? -/
def State.attached (s : State) (ck : Nat) : Bool := (s.ctx ck).dbg.session.isSome

def dctlPort (d : Word) : Nat := d.toNat / 65536
def dctlPen (d : Word) : Bool := d.getLsbD 15
/-- LOG2INT of DCTL: values outside 12 to 24 are taken as 20 (R361). -/
def dctlInt (d : Word) : Nat := let n := d.toNat / 256 % 32; if 12 ≤ n && n ≤ 24 then n else 20
/-- LOGPG of DCTL: 0 is taken as 16 (R361). -/
def dctlPg (d : Word) : Nat := let n := d.toNat % 256; if n = 0 then 16 else n

/-- Write a debug event to the ring of a context, and to DPORT when DPEN is set (R365). (DEDUCED, log 60: unsafe.) -/
def State.dbgEvent (s : State) (p c : Nat) (evt : Nat) (eaddr : Word) (g : Nat) (eseq : Word) : State :=
  let k := ctxKey p c
  let x := s.gang g
  let eg := BitVec.ofNat 32 x.gangId
  let ei := BitVec.ofNat 32 x.interval
  let ec := BitVec.ofNat 32 x.count
  let s := if 256 ≤ (s.ctx k).dbg.ring.length then
      s.updCtx k (fun c => { c with dbg := { c.dbg with drops := c.dbg.drops + 1 } })
    else
      let (n, s) := s.seqNext p
      s.updCtx k (fun c => { c with dbg := { c.dbg with drops := 0, ring := c.dbg.ring ++ [{ seq := n, drops := min c.dbg.drops 255, evt := evt, eaddr := eaddr, egang := eg, eint := ei, ecount := ec, eseq := eseq }] } })
  let d := (s.ctx k).dbg.dctl
  if dctlPen d then
    s.post p c (dctlPort d) { kind := 9, sender := 0, payload := [BitVec.ofNat 32 evt, eaddr, eg, ei, ec, eseq] }
  else s

/-- The stop record of a warp that stops at its boundary for another's event (R367). -/
def Warp.haltRecord (w : Warp) (g : Gang) (skid : Nat) : StopRec :=
  { valid := true, cause := cDEBUG_HALT, tpc := w.issuePc.getD 0#32, tmask := w.issueSet, skid := skid, sint := g.interval, scount := g.count }

/-- Bring a warp to its step boundary: a step whose side effect has not performed is abandoned, with its wait at a fence
(R351, R364). -/
def Warp.toBoundary (w : Warp) : Warp :=
  if w.step.performed then w else { w.abandon with wait := if w.wait == .fence then .ready else w.wait }

/-- Halt one gang: every warp that is not already stopped leaves a stop record (R364). A step that is abandoned ends its turn (R373). -/
def State.haltGang (s : State) (g : Nat) : State :=
  let x := s.gang g
  let turn := x.turnOf.filter (fun u => !(s.warp u).step.started || (s.warp u).step.performed)
  let s := s.setGang g { x with halted := true, turnOf := turn }
  x.warps.foldl (fun s u =>
    let w := s.warp u
    if !w.live || w.step.performed || w.stopRec.valid then s
    else s.setWarp u { w.toBoundary with stopRec := w.toBoundary.haltRecord x 0, stepping := false }) s

/-- The gangs that a stop reaches: the gang, or every gang of its launch (R364). -/
def State.stopGangs (s : State) (g : Nat) (wide : Bool) : List Nat :=
  if wide then (s.gangs.filter (fun e => e.2.launch == (s.gang g).launch && e.2.place != .retired && e.2.place != .absent)).map (·.1)
  else [g]

/-- Stop the gangs that an event reaches; held gangs of a launch that it reaches whole are marked too (R364). -/
def State.broadcast (s : State) (g : Nat) (wide : Bool) : State :=
  let s := (s.stopGangs g wide).foldl State.haltGang s
  if wide then s.updLaunch (s.gang g).launch (fun l => { l with haltNew := true }) else s

/-- A debug-class delivery (R347, R364, R367): the stop broadcast, the raising warp's own record, the event. -/
def State.debugStop (s : State) (u : Nat) (cause : Nat) (tpc taddr tinfo : Word) (tmask : Mask) (evt : Nat) (wide : Bool) : State :=
  let w := s.warp u
  let g := s.gang w.gang
  let s := s.updWarp u (fun w => { w with stopRec := { valid := true, cause := cause, tpc := tpc, tmask := tmask, taddr := taddr, tinfo := tinfo, skid := 0, sint := g.interval, scount := g.count } })
  let s := s.broadcast w.gang wide
  s.dbgEvent g.part g.ctx evt (if cause == cWATCHPOINT then taddr else tpc) w.gang 0#32

/-! ### Delivery (R342, R343) -/

/-- The delivery classes of R341. -/
inductive TrapClass
  | emu | user | sup | debug | async
  deriving DecidableEq, Repr

/-- The class of a cause raised by a warp (R342; the first class of rows that give two). -/
def classOf (cause : Nat) : TrapClass :=
  if cause = cGUEST_NOTEMPLATE then .emu
  else if cause = cBREAKPOINT || cause = cSINGLE_STEP || cause = cWATCHPOINT || cause = cDEBUG_HALT then .debug
  else if cause = cCODE_INTEGRITY || cause = cPAGE_ABSENT || cause = cPAGE_RIGHTS || cause = cPOISON || cause = cWALK_ERROR
    || cause = cWATCHDOG || cause = cACC_FIRST_USE then .sup
  else if cause = cCOPY_ERROR || cause = cSEND_ERROR || cause = cSCRATCH_QUOTA || cause = cBYTE_EXCESS || cause = cHEAP_FULL
    || cause = cHEAP_INEXACT || cause = cADMISSION || cause = cCOLL_PEER_ABORT || cause = cPREEMPT || cause = cMACHINE_CHECK
    || cause = cMACHINE_CHECK_FATAL || cause = cPARTITION_RESET || cause = cCONTEXT_KILLED || cause = cTIME_TRIGGER_LATE then .async
  else .user

/-- The class in which a cause is delivered to a warp (R343). -/
def State.deliveryClass (s : State) (w : Warp) (cause : Nat) : TrapClass :=
  let k := classOf cause
  let k := if k == .debug && !s.attached (s.ckOf w) then (if cause == cBREAKPOINT then .user else .sup) else k
  let k := if k == .user && (w.mode == .user || w.mode == .sup || !w.sp.trapvec.getLsbD 0) then .sup else k
  if w.mode == .sup && k != .async then .sup else k

/-- Write TCAUSE to TINFO (R343). -/
def Warp.setTrap (w : Warp) (cause : Nat) (tpc taddr tinfo : Word) (tmask : Mask) : Warp :=
  { w with sp := { w.sp with tcause := BitVec.ofNat 32 cause, tpc := tpc, taddr := taddr, tmask := tmask, tinfo := tinfo } }

/-- Send the unexited lanes of `m` to a handler and hold every other present, unexited lane (R344, R345, R71). -/
def Warp.enterLanes (w : Warp) (m : Mask) (entry : Word) : Warp :=
  { w.setVpc (m &&& w.unexited) (fun _ => entry) with held := w.unexited &&& ~~~m }

/-- User-class entry (R344): the trap window, user mode, slot 0, the handler at TRAPVEC with bit 0 cleared. -/
def Warp.enterUser (w : Warp) (cause : Nat) (tpc taddr tinfo : Word) (tmask : Mask) : Warp :=
  let prev : Word := BitVec.ofNat 32 ((if w.mode == .emu then 16 else 0) + w.sp.kwslot % 16)
  let win : List Word := [BitVec.ofNat 32 cause, tpc, taddr, tmask, tinfo, w.sp.flags, prev, w.held] ++ List.replicate 8 0#32
  let w1 := (List.range 16).foldl (fun a i => a.setS (480 + i) (win.getD i 0#32)) w
  let w2 := { w1 with rsU := { mode := w.mode, kwslot := w.sp.kwslot, held := w.held }, mode := .user }
  let w3 := w2.setTrap cause tpc taddr tinfo tmask
  { w3 with sp := { w3.sp with kwslot := 0 } }.enterLanes tmask (w.sp.trapvec &&& ~~~1#32)

/-- Supervisor-class entry (R345): whatever the warp waited for, its lanes of TMASK go on at the entry. A cause raised in supervisor
mode leaves RSTATE_S as the first entry wrote it. -/
def Warp.enterSup (w : Warp) (entry : Word) (cause : Nat) (tpc taddr tinfo : Word) (tmask : Mask) : Warp :=
  let w1 := if w.mode == .sup then w else
    { w with rsS := { tcause := w.sp.tcause, tpc := w.sp.tpc, taddr := w.sp.taddr, tmask := w.sp.tmask, tinfo := w.sp.tinfo,
                      mode := w.mode, kwslot := w.sp.kwslot, held := w.held, wait := w.wait, wsets := w.wsets },
             mode := .sup }
  let w1 := if cause = cCODE_INTEGRITY then { w1 with badPages := (taddr.toNat / 65536) :: w1.badPages } else w1
  let w2 := { w1 with wait := .ready, wsets := [] }.setTrap cause tpc taddr tinfo tmask
  { w2 with sp := { w2.sp with kwslot := 0 } }.enterLanes tmask entry

/-- `deliver()` of R343, emulation-class entries excepted. In the debug class the event is `evt`, and the stop reaches the launch if
`wide` (R364). -/
def State.deliverAs (s : State) (u : Nat) (cause : Nat) (tpc taddr tinfo : Word) (tmask : Mask) (evt : Nat) (wide : Bool) : State :=
  let s := s.unpark u
  let w := s.warp u
  match s.deliveryClass w cause with
  | .async => s.recordWarp w cause taddr tinfo
  | .debug => s.debugStop u cause tpc taddr tinfo tmask evt wide
  | .user => (s.leaveLoop u).setWarp u (w.enterUser cause tpc taddr tinfo tmask)
  | _ => (s.leaveLoop u).setWarp u (w.enterSup (s.ctx (s.ckOf w)).supEntry cause tpc taddr tinfo tmask)

/-- `deliver()` of R343 (R365: event 3 is a breakpoint's). -/
def State.deliver (s : State) (u : Nat) (cause : Nat) (tpc taddr tinfo : Word) (tmask : Mask) : State :=
  s.deliverAs u cause tpc taddr tinfo tmask 3 false

/-- `fault()` of R343: nothing of the step commits, and the cause is delivered at the step's first address. -/
def State.faultWarp (s : State) (u : Nat) (cause : Nat) (taddr tinfo : Word) (tmask : Mask) : State :=
  let first := (s.warp u).step.first
  (s.updWarp u Warp.abandon).deliver u cause first taddr tinfo tmask

/-- The restorations of TRET (R346). -/
def Warp.tret (w : Warp) : Warp :=
  let w1 := w.setVpc (w.sp.tmask &&& w.unexited) (fun _ => w.sp.tpc)
  match w.mode with
  | .user => { w1 with mode := w.rsU.mode, held := w.rsU.held, sp := { w1.sp with kwslot := w.rsU.kwslot } }
  | .sup =>
    { w1 with mode := w.rsS.mode, held := w.rsS.held, wait := w.rsS.wait, wsets := w.rsS.wsets,
              sp := { w1.sp with tcause := w.rsS.tcause, tpc := w.rsS.tpc, taddr := w.rsS.taddr, tmask := w.rsS.tmask, tinfo := w.rsS.tinfo, kwslot := w.rsS.kwslot } }
  | _ => w1

/-! ### Waits that end in a trap -/

/-- May a trap be delivered to the warp now: its gang is resident, neither stopped nor halted, and does not re-execute? -/
def State.running (s : State) (w : Warp) : Bool :=
  let g := s.gangOf w
  g.place == .resident && !g.halted && !g.stop && g.rerun.isNone

/-- Take the trap that ended a wait: TPC is the end of the step that waited (R272, R313). -/
def State.endWaitTrap (s : State) (u : Nat) : State :=
  match (s.warp u).wait with
  | .trap cause tpc taddr tinfo m => (s.updWarp u (fun w => { w with wait := .ready })).deliver u cause tpc taddr tinfo m
  | _ => s

/-- A wait that ended in a trap is taken when it is entered again (R274, R313). -/
def State.takeWaitTrap (s : State) (u : Nat) : State :=
  if (s.warp u).live && s.running (s.warp u) then s.endWaitTrap u else s

/-- Take the pending wait traps of a gang that runs again. -/
def State.wakeTraps (s : State) (g : Nat) : State := (s.gang g).warps.foldl State.takeWaitTrap s

/-! ### Named barriers (R269 to R274) -/

def Gang.barrier (g : Gang) (b : Nat) : Barrier := g.barriers.get b
def State.updBarrier (s : State) (g b : Nat) (f : Barrier → Barrier) : State :=
  s.updGang g (fun x => { x with barriers := x.barriers.set b (f (x.barrier b)) })

/-- The end of a phase for one wait: released, or a pending trap. -/
def Wait.endPhase (t : Wait) (b : Nat) (broken : Option (Nat × Word)) : Wait :=
  match t with
  | .barrier b' m _ e =>
    if b' != b then t
    else match broken with
      | none => .ready
      | some (r, ph) => .trap cBARRIER_BROKEN e ph (BitVec.ofNat 32 (256 * b + r)) m
  | _ => t

/-- A BARSYNC whose step has not yet committed when its phase ends. (DEDUCED, log 37: safe.) -/
def Buf.endPhase (b : Nat) (broken : Option (Nat × Word)) : Buf → List Buf
  | .barWait b' m ph =>
    if b' != b then [.barWait b' m ph]
    else match broken with
      | none => []
      | some (r, ph) => [.barBroken b m r ph]
  | x => [x]

/-- End a phase for every warp of the gang (R271). -/
def State.endPhase (s : State) (g b : Nat) (broken : Option (Nat × Word)) : State :=
  (s.gang g).warps.foldl (fun s u =>
    let w := s.warp u
    let w' := { w with wait := w.wait.endPhase b broken, rsS := { w.rsS with wait := w.rsS.wait.endPhase b broken },
                       step := { w.step with buf := w.step.buf.flatMap (Buf.endPhase b broken) },
                       barrierArrived := if b == 0 then false else w.barrierArrived }
    (s.setWarp u w').takeWaitTrap u) s

/-- `complete(b)` of R271; the completion takes a draw (R237). (DEDUCED, log 37: safe.) -/
def State.completeBarrier (s : State) (g b : Nat) : State :=
  ((s.seqNext (s.gang g).part).2.updBarrier g b (fun x => { x with phase := x.phase + 1#32, broken := false, count := 0, arrived := 0 })).endPhase g b none

/-- `break(b, r)` of R271. -/
def State.breakBarrier (s : State) (g b r : Nat) : State :=
  let ph := ((s.gang g).barrier b).phase
  let s := s.updBarrier g b (fun x => { x with phase := x.phase + 1#32, broken := true, count := 0, arrived := 0, balance := 0 })
  let s := s.endPhase g b (some (r, ph))
  let x := s.gang g
  if r == 1 then s.record x.part x.ctx cBYTE_EXCESS ph (BitVec.ofNat 32 (256 * b + 1)) (BitVec.ofNat 32 x.gangId) noUnit else s

/-- `settle(b)` of R271; deferred while a warp of the gang is halted (R370). -/
def State.settle (s : State) (g b : Nat) : State :=
  let x := (s.gang g).barrier b
  if (s.gang g).halted then s
  else if x.balance < -2147483648 || 2147483647 < x.balance then s.breakBarrier g b 4
  else if x.count != 0 && x.arrived == x.count then
    if x.balance == 0 then s.completeBarrier g b
    else if 0 < x.balance then s.breakBarrier g b 1
    else s
  else s

/-- A barrier breaks for an event outside the gang: a replay gang logs the waits that it ends (R271, R374). -/
def State.breakFrom (s : State) (g b r : Nat) : State :=
  let on (t : Wait) : Bool := match t with
    | .barrier n _ _ _ => n == b
    | _ => false
  let us := (s.gang g).warps.filter (fun u => (s.warp u).live && (on (s.warp u).wait || on (s.warp u).rsS.wait))
  (us.foldl (fun s u => s.logWake u []) s).breakBarrier g b r

/-- Break a barrier for a reason other than its count, or note it until the gang resumes (R271, R370). -/
def State.requestBreak (s : State) (g b r : Nat) : State :=
  if (s.gang g).halted || s.midStep g then s.updBarrier g b (fun x => { x with pend := r }) else s.breakFrom g b r

/-- A replay gang takes the bytes that reached a barrier in the middle of a step (R373, R374). -/
def State.takeBytes (s : State) (g b : Nat) : State :=
  let n := ((s.gang g).barrier b).owed
  if n = 0 then s
  else (s.logInput g 3 0xFFFF 0#32 (natBytes 8 n)).updBarrier g b (fun x => { x with balance := x.balance + x.owed, owed := 0 })

/-- Settle every barrier of a gang once, in increasing number, as its last halted warp resumes (R370). -/
def State.settleAll (s : State) (g : Nat) : State :=
  (List.range 32).foldl (fun s b =>
    let s := s.takeBytes g b
    let r := ((s.gang g).barrier b).pend
    if r != 0 then (s.updBarrier g b (fun x => { x with pend := 0 })).breakFrom g b r else s.settle g b) s

/-- `byte_arrival(b, bytes)` of R271. -/
def State.byteArrival (s : State) (g b n : Nat) : State :=
  if s.midStep g then s.updBarrier g b (fun x => { x with owed := x.owed + n })
  else ((s.logInput g 3 0xFFFF 0#32 (natBytes 8 n)).updBarrier g b (fun x => { x with balance := x.balance + n })).settle g b

/-- A warp registered with a pattern that has been disarmed is released: its wait ends in PATTERN_INVALID reason 5 (R313). -/
def Wait.unregistered (t : Wait) (pk : Nat) : Wait :=
  match t with
  | .jwait p _ m e => if p == pk then .trap cPATTERN_INVALID e 0#32 (BitVec.ofNat 32 (5 * 65536 + pk % 4096)) m else t
  | t => t

def State.unregister (s : State) (u pk : Nat) : State :=
  ((s.logWake u []).updWarp u (fun w => { w with wait := w.wait.unregistered pk, rsS := { w.rsS with wait := w.rsS.wait.unregistered pk } })).takeWaitTrap u

/-- The pattern with which a warp waits without being registered: it was disarmed in the middle of a step of the replay gang. -/
def State.lostPat (s : State) (u : Nat) : Option Nat :=
  let w := s.warp u
  let of (t : Wait) : Option Nat := match t with
    | .jwait p _ _ _ => if (s.pat p).waiters.contains u then none else some p
    | _ => none
  (of w.wait).or (of w.rsS.wait)

/-- What reached a replay gang in the middle of a step acts at its boundary: bytes, breaks, disarmings (R373). (DESIGN CHOICE, log 59: unsafe.) -/
def State.takeOwed (s : State) (g : Nat) : State :=
  if s.midStep g || !(s.launch (s.gang g).launch).replay then s
  else
    let s := ((s.gang g).barriers.filter (fun e => e.2.owed != 0)).foldl (fun s e =>
      (s.takeBytes g e.1).settle g e.1) s
    let s := if (s.gang g).halted then s
      else ((s.gang g).barriers.filter (fun e => e.2.pend != 0)).foldl (fun s e =>
        (s.updBarrier g e.1 (fun x => { x with pend := 0 })).breakFrom g e.1 e.2.pend) s
    (s.gang g).warps.foldl (fun s u => match s.lostPat u with
      | none => s
      | some pk => s.unregister u pk) s

/-- The gang's warps that have not retired. -/
def State.liveWarps (s : State) (g : Nat) : List Nat := (s.gang g).warps.filter (fun u => (s.warp u).live)

end Sys2Proof.Machine
end

