-- ==== Sys2Proof/Machine/Commit.lean ====
section
/-! DEFINITION. The end of an operation and of a step: latches, the buffer's application at commit, arithmetic traps, fences,
mask releases, retirement (R24 to R31, R34, R35, R103, R104, R213, R260, R268, R349). -/
set_option autoImplicit false

namespace Sys2Proof.Machine

/-- The watchdog period of a launch in µs (R275): word 3 of its descriptor, zero for the default. -/
def wdogPeriod (d : List Word) : Nat := if d.getD 3 0#32 = 0#32 then 100000 else (d.getD 3 0#32).toNat

/-! ### Retirement (R260) -/

/-- Does a launch still hold or await a gang? -/
def State.launchDone (s : State) (n : Nat) : Bool :=
  let x := s.launch n
  x.gangs ≤ x.started && s.gangs.all (fun e => e.2.launch != n || e.2.place == .retired)

/-- A launch has retired: the reservation that it took stands again, for the next firing, or for a launch that has yet to take it; that of
a disarmed pattern without such a launch is over (R288). -/
def State.endLaunch (s : State) (n : Nat) : State :=
  { s.updLaunch n (fun l => { l with live := false, places := [] }) with
    pats := s.pats.mapVals (fun k x =>
      if x.taken != some n then x
      else if x.closing && !s.launches.any (fun e => e.1 != n && e.2.live && e.2.rsv && e.2.started == 0 && e.2.places.isEmpty
          && 4096 * ctxKey e.2.part e.2.ctx + e.2.pat == k) then { x with taken := none, rsv := false, places := [], closing := false }
      else { x with taken := none }) }

/-- A gang retires with its last warp: its in-flight heap entries are to complete, and its places are free (R260, R288, R330). -/
def State.retireGang (s : State) (g : Nat) : State :=
  let x := s.gang g
  let s := s.heapRetire (ctxKey x.part x.ctx) g
  let s := s.updGang g (fun x => { x with place := .retired })
  let s := s.updLaunch x.launch (fun l => if l.giveBack && x.reserved then { l with places := l.places.set x.gangId none } else l)
  if s.launchDone x.launch then s.endLaunch x.launch else s

/-- The warp is registered with no pattern (R313). -/
def State.unlist (s : State) (u : Nat) : State :=
  { s with pats := s.pats.mapVals (fun _ x => if x.waiters.contains u then { x with waiters := x.waiters.filter (· != u) } else x) }

/-- Take a warp out of every list that waits for it: parked senders, poppers, registered waiters (R309, R313, R328). -/
def State.forget (s : State) (u : Nat) : State := (s.unpark u).unlist u

/-- A supervisor is done with a warp, by TRET or because the warp ends: where a code page that failed has not been reloaded, the context is
to be killed (R78). (DEDUCED, log 74: unsafe.) -/
def State.noteReload (s : State) (u : Nat) : State :=
  let w := s.warp u
  let c := s.ckOf w
  if w.mode != .sup || w.badPages.isEmpty then s
  else
    let t := s.updWarp u (fun w => { w with badPages := [] })
    if w.badPages.any (fun pg => (s.ctx c).codePages.get pg == .failed) then t.updCtx c (fun c => { c with unreloaded := true }) else t

/-- A warp with no unexited lane retires; one that has not arrived at barrier 0 lowers its count (R260, R271). -/
def State.retireWarp (s : State) (u : Nat) : State :=
  let w := s.warp u
  let g := w.gang
  let s := (((s.noteReload u).forget u).leaveLoop u).setWarp u { w with live := false, step := {}, replies := [], wsets := [], wait := .ready, bound := 0, badPages := [] }
  let s := s.dropOld (s.gang g).part w.bound
  let s := s.updCtx (s.ckOf w) (fun c => { c with spillUsed := c.spillUsed.set w.spillSlot false })
  let b := (s.gang g).barrier 0
  let s := if b.count != 0 && !w.barrierArrived then
      (s.updBarrier g 0 (fun b => { b with count := b.count - 1 })).settle g 0
    else s
  if (s.liveWarps g).isEmpty then s.retireGang g else s

/-! ### Conditions and arithmetic traps (R35, R103, R104, R349) -/

/-- The conditions of the step whose traps are enabled. -/
def Warp.enabledConds (w : Warp) : List Cond := w.step.conds.filter (fun c => w.sp.fpctl.getLsbD c.bit)

/-- The arithmetic trap of R104. -/
def State.arithTrap (s : State) (u : Nat) : State :=
  let w := s.warp u
  let bit := (w.enabledConds.map (·.bit)).foldl min 7
  let hits := w.step.conds.filter (fun c => c.bit == bit)
  let tmask := hits.foldl (fun a c => a ||| c.lanes) 0#32
  let idx := (hits.map (·.op)).foldl min 7
  let acond := w.step.conds.foldl (fun a c => if c.bit < 7 then a ||| 2 ^ c.bit else a) 0
  let ascale := if w.step.conds.any (fun c => c.bit == 7) then 128 else 0
  let taddr := if w.sp.kwslot = 0 then w.step.first + BitVec.ofNat 32 (8 * idx) else w.step.first
  s.faultWarp u (0x30 + bit) taddr (BitVec.ofNat 32 (256 * idx + ascale + acond)) tmask

/-- A fault, park or rejection of operation k stands only if no earlier operation has raised an enabled condition (R349). -/
def State.orArith (s : State) (k : State → State) : State :=
  if s.me.enabledConds.isEmpty then k s else s.arithTrap s.actor

/-- The executing operation faults. -/
def State.raise (s : State) (cause : Nat) (taddr tinfo : Word) (tmask : Mask) : State :=
  s.orArith (fun s => s.faultWarp s.actor cause taddr tinfo tmask)

/-- The executing step is abandoned and its warp waits (R29, R185). -/
def State.park (s : State) (t : Wait) : State :=
  s.orArith (fun s => s.updMe (fun w => { w.abandon with wait := t }))

/-- What a rejection found full (R189, R190): the miss-status entries, the store buffer, an engine's queue. -/
def kMISS : Nat := 1
def kSTORE : Nat := 2
def kENGINE : Nat := 3

/-- The executing step is rejected by a full table or queue, `kind`, and joins the rejection queue at its age (R190). (DEDUCED, log 25: unsafe.) -/
def State.reject (s : State) (kind : Nat) : State :=
  s.orArith (fun s => s.updMe (fun w => { w.abandon with wait := .reject (w.age.getD s.clock), age := some (w.age.getD s.clock), rejKind := kind }))

/-! ### Fences (R213) -/

/-- Are the warp's writes numbered below `n` performed at the scope: at gang scope in sight of the gang, at dom and sys scope also
acknowledged, at sys scope delivered to the host? Below sys, a posted host write has performed once device reads see it, which the commit
of the fence brings about. -/
def State.performedAt (s : State) (u n : Nat) (sc : Scope) : Bool :=
  (s.ownOps u).all (fun k => n ≤ k)
  && (s.heldBelow u n).all (fun k => sc == .gang && (s.heldStores.get k).shown.contains (quadCluster (s.warp u).quad))
  && (s.ownWipes u (fun k _ => k < n)).isEmpty
  && (!(sc == .dom || sc == .sys) || !s.acks.any (fun e => e.2.live && e.2.warp == u && e.2.num < n))
  && (sc != .sys || !s.hostStores.any (fun e => e.2.live && e.2.warp == u && e.1 < n))

/-- Is every fence of the step satisfied: the writes before a releasing one have performed at its scope, the reads before an acquiring one
have been made (R213, R225)? -/
def State.fencesOk (s : State) (u : Nat) : Bool :=
  (s.warp u).step.buf.all (fun b => match b with
    | .fence ord sc _ _ n => (!Order.isRel ord || s.performedAt u n sc) && (!Order.isAcq ord || (s.readsBelow u n).isEmpty)
    | _ => true)

/-! ### Commit (R27) -/

/-- The mask registers that a buffered write touches. -/
def Buf.maskWritten : Buf → List Nat
  | .scal r _ | .mscal r _ | .fence _ _ _ (some r) _ => if 500 ≤ r then [r - 500] else []
  | .maskMerge k _ _ => [k]
  | .mwait k _ => [k]
  | .exit _ => List.range 12
  | _ => []

/-- Release the waiting sets whose enrolled lanes all wait (R268). -/
def Warp.releaseMasks (w : Warp) (ks : List Nat) : Warp :=
  ks.foldl (fun w k =>
    let enrolled := w.mreg k &&& w.unexited
    if enrolled &&& ~~~(w.wsets.get k) = 0#32 then { w with wsets := w.wsets.set k 0#32 } else w) w

/-- Write a special register at commit, reserved bits ignored (R11, R34, R35, R266). -/
def Warp.writeSr (w : Warp) (n : Nat) (x : Word) : Warp :=
  match n with
  | 0x0A => { w with sp := { w.sp with flags := x &&& 0x7F#32 } }
  | 0x0B => { w with sp := { w.sp with fpctl := x &&& 0xFF#32 } }
  | 0x0D => { w with sp := { w.sp with spillp := x } }
  | 0x0F => { w with sp := { w.sp with tcause := x } }
  | 0x10 => { w with sp := { w.sp with tpc := x } }
  | 0x11 => { w with sp := { w.sp with taddr := x } }
  | 0x12 => { w with sp := { w.sp with tmask := x } }
  | 0x13 => { w with sp := { w.sp with tinfo := x } }
  | 0x14 => { w with sp := { w.sp with emuvec := x } }
  | 0x15 => { w with sp := { w.sp with trapvec := x } }
  | 0x24 => { w with sp := { w.sp with spillbase := x } }
  | 0x25 => { w with sp := { w.sp with spillsize := x } }
  | _ => w

/-- The word of a copy batch's result (R203): how many, the flags of all, the cause of the first that failed. -/
def batchFlags (b : List CopyRef) : Nat := b.foldl (fun a c => a ||| c.flags) 0

/-- Write a mask register of which only some present lanes' bits are written: a tag of it stays (R350). -/
def Warp.setMask (w : Warp) (r : Nat) (x : Word) : Warp := { w with regs := { w.regs with scal := w.regs.scal.set r x } }

/-- Set the bits `m` of mask register `k`; the tag goes only if every present lane's bit is written. -/
def Warp.mergeBits (w : Warp) (k : Nat) (m v : Mask) : Warp :=
  let x := (w.mreg k &&& ~~~m) ||| (v &&& m)
  if w.present &&& ~~~m = 0#32 then w.setS (500 + k) x else w.setMask (500 + k) x

/-- The lanes of `m` exit: they leave the masks and the waiting sets, and no reply is written to them (R260). -/
def Warp.exitLanes (w : Warp) (m : Mask) : Warp :=
  let w := { w with exited := w.exited ||| m, wsets := w.wsets.mapVals (fun _ x => x &&& ~~~m),
                    replies := w.replies.mapVals (fun _ r => if r.vec then { r with lanes := r.lanes &&& ~~~m } else r) }
  (List.range 12).foldl (fun w k => w.setMask (500 + k) (w.mreg k &&& ~~~m)) w

/-- The address after the last operation of the step in progress. -/
def StepCtx.stepEnd (c : StepCtx) : Word := c.first + BitVec.ofNat 32 c.len

/-- Apply one buffered effect. KWRET ends in normal mode, whatever mode the emulation was entered from. (DEDUCED, log 32: safe; DEDUCED,
log 78: unsafe.) -/
def State.applyBuf (s : State) (u : Nat) (b : Buf) : State :=
  match b with
  | .vec r m v => s.updWarp u (fun w => w.setVs r m v)
  | .scal r x => s.updWarp u (fun w => w.setS r x)
  | .mscal r x => s.updWarp u (fun w => w.setMask r x)
  | .maskMerge k m v => s.updWarp u (fun w => w.mergeBits k m v)
  | .sr n x => s.updWarp u (fun w => w.writeSr n x)
  | .snapSteps hi => s.updWarp u (fun w => { w with sp := { w.sp with stepsHi := hi } })
  | .snapPhc ns sec sech => s.updWarp u (fun w => { w with sp := { w.sp with phcNs := ns, phcSec := sec, phcSech := sech } })
  | .exit m => s.updWarp u (fun w => w.exitLanes m)
  | .mwait k m => s.updWarp u (fun w => { w with wsets := w.wsets.set k (w.wsets.get k ||| m) })
  | .barWait b m ph => s.updWarp u (fun w => { w with wait := .barrier b m ph w.step.stepEnd })
  | .barBroken b m r ph => s.updWarp u (fun w => { w with wait := .trap cBARRIER_BROKEN w.step.stepEnd ph (BitVec.ofNat 32 (256 * b + r)) m })
  | .jwait pat d m =>
    if (s.pat pat).armed then
      (s.updPat pat (fun x => { x with waiters := x.waiters ++ [u] })).updWarp u (fun w => { w with wait := .jwait pat d m w.step.stepEnd })
    else s.updWarp u (fun w => { w with wait := .trap cPATTERN_INVALID w.step.stepEnd 0#32 (BitVec.ofNat 32 (5 * 65536 + pat % 4096)) m })
  | .sleep sec ns => if s.deadlinePassed sec ns then s else s.updWarp u (fun w => { w with wait := .sleep sec ns })
  | .yield => { s with turns := s.turns + 1 }.updWarp u (fun w => { w with lastStart := s.turns + 2 })
  | .softTrap _ _ => s
  | .tret =>
    let ends := (s.warp u).mode == .sup && (s.gangOf (s.warp u)).wdWarp == some u
    let s := s.noteReload u
    let s := s.updWarp u Warp.tret
    if ends then (s.updGang (s.warp u).gang (fun g => { g with stop := false, wdWarp := none })).wakeTraps (s.warp u).gang else s
  | .kwsel n => s.updWarp u (fun w =>
      let ks := (s.part (s.partOf w)).slots.get n
      { w with sp := { w.sp with kwslot := n, emuvec := if n = 0 then w.sp.emuvec else BitVec.ofNat 32 (bytesNat (ks.image.drop 0x0C |>.take 4)) + ks.base } })
  | .kwret n => s.updWarp u (fun w => { w with mode := .normal, held := 0#32, sp := { w.sp with kwslot := n } })
  | .fence ord sc rf d n =>
    let s := if Order.isRel ord then s.release u n sc else s
    let s := if Order.isAcq ord then s.freeze u else s
    let s := if Order.isAcq ord && wideScope sc then s.bumpGen (quadCluster (s.warp u).quad) else s
    if rf then
      let ck := s.ckOf (s.warp u)
      let x := BitVec.ofNat 32 (s.remoteOr ck)
      let s := s.clearRemote ck
      match d with
      | some r => s.updWarp u (fun w => w.setS r x)
      | none => s
    else s
  | .genbump => s.bumpGen (quadCluster (s.warp u).quad)
  | .seal b => s.updWarp u (fun w => { w with batches := w.batches.set b (w.batches.get b ++ w.unsealed), unsealed := [] })
  | .batchDone b => s.updWarp u (fun w => { w with batches := w.batches.set b [] })
  | .mgroup q => s.updWarp u (fun w => { w with q := q })
  | .reply id => s.updWarp u (fun w => { w with replies := w.replies.upd id (fun r => { r with held := true }) })

/-- A wait that may have ended in a trap before its step committed: the trap is entered at that commit (R349). -/
def Buf.traps : Buf → Bool
  | .barBroken _ _ _ _ | .jwait _ _ _ => true
  | _ => false

/-- The causes of a step that are delivered after its commit (R264, R272). -/
def State.postCommit (s : State) (u : Nat) (stepEnd : Word) (bufs : List Buf) : State :=
  let s := if bufs.any Buf.traps then s.endWaitTrap u else s.takeWaitTrap u
  bufs.foldl (fun s b => match b with
    | .softTrap imm m => s.deliver u cSOFT_TRAP stepEnd 0#32 imm m
    | _ => s) s

/-- The snapshot of a gang as it stands, and the accesses of the step that led there. -/
def State.snapOf (s : State) (g : Nat) (accs : List StepAcc) : Snap :=
  let x := s.gang g
  let lo := gangLoc g 0
  { interval := x.interval, count := x.count, accs := accs, gang := x, warps := x.warps.map (fun u => (u, s.warp u)),
    mem := s.mem.filter (fun c => lo ≤ c.1 && c.1 < lo + 2 ^ 22),
    poison := (s.poisonUnit.filter (fun c => lo ≤ 16 * c.1 && 16 * c.1 < lo + 2 ^ 22 && c.2)).map (·.1) }

/-- Keep a snapshot of a replay gang at a step boundary; those of older intervals than the previous one are dropped (R374). (DESIGN CHOICE, log 59: unsafe.) -/
def State.snapshot (s : State) (g : Nat) : State :=
  let x := s.gang g
  if !(s.launch x.launch).replay || x.rerun.isSome then s
  else
    let snap := s.snapOf g x.accs
    { s.updGang g (fun x => { x with accs := [] }) with history := s.history.upd g (fun l => l.filter (fun y => x.interval ≤ y.interval + 1) ++ [snap]) }

/-- Has the interval of a replay gang ended: its steps are used up, or its log is full (R374)? -/
def State.checkpointDue (s : State) (g : Nat) : Bool :=
  let x := s.gang g
  let d := (s.ctx (ctxKey x.part x.ctx)).dbg.dctl
  (s.launch x.launch).replay && x.rerun.isNone && (2 ^ dctlInt d ≤ x.count || 65536 * dctlPg d ≤ x.logBytes)

/-- A new interval begins, with its checkpoint (R374). -/
def State.checkpoint (s : State) (g : Nat) : State :=
  let s := s.updGang g (fun x => { x with interval := x.interval + 1, count := 0, logBytes := 0 })
  { s with logs := s.logs.upd g (fun l => l.filter (fun e => (s.gang g).interval ≤ e.interval + 1)) }.snapshot g

/-- What a committed step counts for its gang: the watchdog restarts, the count advances, a replay gang's turn ends (R289, R372, R373). -/
def State.countStep (s : State) (u : Nat) : State :=
  let w := s.warp u
  s.updGang w.gang (fun x => { x with wdog := 0, count := x.count + 1, lastCommit := some w.wid, turnOf := none })

/-- Keep the point that a committed step has reached; a full interval ends there (R374). -/
def State.keepPoint (s : State) (g : Nat) : State :=
  let s := s.snapshot g
  if s.checkpointDue g then s.checkpoint g else s

/-! ### The gang watchdog's delivery (R289, R358) -/

/-- Has every warp of the gang reached a step boundary (R30, R351)? -/
def State.atBoundary (s : State) (g : Nat) : Bool := (s.liveWarps g).all (fun u => !(s.warp u).step.performed)

/-- A wait as a save or a watchdog leaves it: what only retries a step is over (R190, R309, R328). -/
def Wait.atSave : Wait → Wait
  | .reject _ | .fence | .sender _ | .popper _ => .ready
  | t => t

/-- Where an unretired warp stands: its issue address and set, or the least VPC of its unexited lanes and the lanes there. (DEDUCED, log 51: safe.) -/
def Warp.standing (w : Warp) : Word × Mask :=
  match w.issuePc with
  | some p => (p, w.issueSet)
  | none =>
    let p := (w.unexited.lanes).foldl (fun (a : Option Word) l => match a with
      | none => some (w.vpcAt l)
      | some p => some (if (w.vpcAt l).toNat < p.toNat then w.vpcAt l else p)) none
    let pc := p.getD 0#32
    (pc, Mask.ofFn (fun l => w.unexited.has l && w.vpcAt l == pc))

/-- WATCHDOG reaches the lowest unretired warp of a gang whose watchdog has expired, once every warp of it stands at a step
boundary (R289). (DEDUCED, log 51: safe.) -/
def State.raiseWatchdog (s : State) (g : Nat) : State :=
  let x := s.gang g
  if !x.wdPend || !s.atBoundary g then s
  else match (s.liveWarps g).head? with
    | none => s
    | some u =>
      let l := s.launch x.launch
      let s := s.updGang g (fun x => { x with wdPend := false, wdWarp := some u })
      let s := (s.liveWarps g).foldl (fun s v => s.updWarp v Warp.toBoundary) s
      let s := (s.unpark u).updWarp u (fun w => { w with wait := w.wait.atSave })
      let st := (s.warp u).standing
      s.deliver u cWATCHDOG st.1 (BitVec.ofNat 32 (wdogPeriod l.words)) (BitVec.ofNat 32 (65536 * l.desc)) st.2

/-- The debug stops of a boundary: the end of a single step, or the skid of a halted gang's warp (R364, R369). -/
def State.boundaryStop (s : State) (u : Nat) : State :=
  let w := s.warp u
  let g := s.gang w.gang
  if w.stepping then
    (s.updWarp u (fun w => { w with stepping := false })).debugStop u cSINGLE_STEP (w.issuePc.getD 0#32) 0#32 0#32 w.issueSet 4 false
  else if g.halted && !w.stopRec.valid then s.updWarp u (fun w => { w with stopRec := w.haltRecord g 1 })
  else s

/-- A warp whose last lane exited with the step retires; a single step that it ends is reported (R260, R369). -/
def State.retireStep (s : State) (u : Nat) (first : Word) : State :=
  let w := s.warp u
  let g := s.gang w.gang
  (if w.stepping then (s.retireWarp u).dbgEvent g.part g.ctx 4 first w.gang 0#32 else s.retireWarp u).keepPoint w.gang

/-- Where the warp continues decides whether it still runs its loop's body (R76). -/
def State.followLoop (s : State) (u : Nat) : State :=
  match (s.warp u).issuePc with
  | some pc => s.checkLoop u pc
  | none => s

/-- The commit itself: the buffer in operation order, the flags, VPC, STEPS (R27, R34); then what meets at the boundary, in the order
of R349. -/
def State.commitNow (s : State) (u : Nat) : State :=
  let c := (s.warp u).step
  let acond := c.conds.foldl (fun a x => if x.bit < 7 then a ||| 2 ^ x.bit else a) 0
  let stepEnd := c.stepEnd
  let s := s.updWarp u (fun w => w.setVpc c.issue (fun l => c.nexts.getD l stepEnd))
  let s := c.buf.foldl (fun s b => s.applyBuf u b) s
  let s := (s.unpark u).updWarp u (fun w =>
    let w := { w with step := {}, age := none, rejKind := 0, urgent := false, woken := [],
                      sp := { w.sp with flags := w.sp.flags ||| BitVec.ofNat 32 acond, steps := w.sp.steps + 1 } }
    w.releaseMasks (c.buf.flatMap Buf.maskWritten))
  let s := s.countStep u
  let s := s.followLoop u
  let g := (s.warp u).gang
  (if (s.warp u).unexited = 0#32 then s.retireStep u c.first
   else ((s.postCommit u stepEnd c.buf).keepPoint g).boundaryStop u).raiseWatchdog g

/-- Close the step in progress (R29): an enabled condition traps, an unsatisfied fence waits, else the step commits. (DESIGN CHOICE, log 12: safe.) -/
def State.commit (s : State) (u : Nat) : State :=
  if !(s.warp u).enabledConds.isEmpty then s.arithTrap u
  else if s.fencesOk u then s.commitNow u
  else s.updWarp u (fun w => { w with wait := .fence, step := { w.step with closed := true } })

/-! ### The end of one operation (R25, R26, R51) -/

/-- Record conditions by lanes: `fl` gives each lane's flag weights. -/
def condsOf (idx : Nat) (m : Mask) (fl : Nat → Nat) : List Cond :=
  let fls := (List.range 32).map (fun l => if m.has l then fl l else 0)
  if fls.all (· == 0) then []
  else (List.range 8).filterMap (fun b =>
    let lanes := Mask.ofFn (fun l => fls.getD l 0 / 2 ^ b % 2 == 1)
    if lanes = 0#32 then none else some { op := idx, bit := b, lanes := lanes })

/-- The reply that an operation's effects hold a register for. -/
def Buf.replyOf : Buf → Option Nat
  | .reply id => some id
  | _ => none

/-- Shift the latches and go on to the next operation, or close the step when E = 1. (DESIGN CHOICE, log 12: safe.) -/
def State.finish (s : State) (e : Bool) (res : Option Lanes) (buf : List Buf) (conds : List Cond) : State :=
  let s := s.updMe (fun w => { w with step := { w.step with
    latches := res :: w.step.latches.take 3, lrep := (buf.findSome? Buf.replyOf) :: w.step.lrep.take 3,
    buf := w.step.buf ++ buf, conds := w.step.conds ++ conds,
    idx := w.step.idx + 1, ops := w.step.ops.drop 1 } })
  if e then s.commit s.actor else s

/-- The step's side effect performs from here on: it commits whatever comes (R30). -/
def State.perform (s : State) : State := s.updMe (fun w => { w with step := { w.step with performed := true } })

end Sys2Proof.Machine
end

