-- ==== Sys2Proof/Machine/Fetch.lean ====
section
/-! DEFINITION. Fetching and decoding a step: code pages, native steps, guest expansion (R36, R60 to R72, R78), the checks of
R54 in their order, code breakpoints (R362). -/
set_option autoImplicit false

namespace Sys2Proof.Machine

/-! ### Code bytes (R62, R78) -/

/-- What a fetch meets: bytes, a cause at an address, a park on a code page. -/
inductive Fetched
  | ok (b : List Byte)
  | cause (n : Nat) (addr : Word)
  | park (page : Nat)
  deriving DecidableEq, Repr

/-- Is the context's warp in supervisor mode? -/
def Warp.isSup (w : Warp) : Bool := w.mode == .sup

/-- The 64 KiB pages that `n` bytes at `va` touch. -/
def pagesOf (va n : Nat) : List Nat := if (va + n - 1) / 65536 = va / 65536 then [va / 65536] else [va / 65536, (va + n - 1) / 65536]

/-- The first page, in order, that makes `f` answer. -/
def firstSome {α β : Type} (f : α → Option β) : List α → Option β
  | [] => none
  | a :: r => match f a with
    | some b => some b
    | none => firstSome f r

/-- The key of the line of a code-window address in an L1 instruction cache (R411). -/
def codeKey (ck va : Nat) : Nat := 2 ^ 25 * ck + va / 128

/-- A code byte as cluster `cl` fetches it: from a line that its L1 instruction cache holds, else from where the address translates to
(R62). -/
def State.codeByte (s : State) (cl ck va loc : Nat) : Byte :=
  match (s.cluster cl).icode.get (codeKey ck va) with
  | [] => s.byte loc
  | b => b.getD (va % 128) 0#8

/-- Lines of 128 bytes in the 256 KiB of an L1 instruction cache (R2). (DESIGN CHOICE, log 90: unsafe.) -/
def codeLines : Nat := 2048

/-- The L1 instruction cache takes the lines of a step that has been fetched; a full one drops a line first (R62). (DESIGN CHOICE, log 90:
unsafe.) -/
def State.fillCode (s : State) (cl p c : Nat) (sup : Bool) (va n : Nat) : State :=
  let ck := ctxKey p c
  (List.range ((va + n - 1) / 128 - va / 128 + 1)).foldl (fun s i =>
    let a := 128 * (va / 128 + i) % 2 ^ 32
    match (s.cluster cl).icode.get (codeKey ck a), s.translateAt cl p c .code .fetch sup a with
    | [], .ok loc _ => s.updCluster cl (fun x =>
        let kept := if x.icode.length < codeLines then x.icode else x.icode.drop 1
        { x with icode := kept.set (codeKey ck a) (s.bytes loc 128) })
    | _, _ => s) s

/-- Fetch `n` bytes of the code window in cluster `cl`: every page is translated, then every page is verified (R62, R78). -/
def State.fetch (s : State) (cl p c : Nat) (sup : Bool) (va n : Nat) : Fetched :=
  let pages := pagesOf va n
  let at_ (pg : Nat) : Nat := if pg = va / 65536 then va else pg * 65536
  match firstSome (fun pg => match s.translateAt cl p c .code .fetch sup (at_ pg % 2 ^ 32) with
      | .cause k => some (k, at_ pg)
      | .ok _ _ => none) pages with
  | some (k, a) => .cause k (BitVec.ofNat 32 a)
  | none =>
    match firstSome (fun pg => if (s.ctx (ctxKey p c)).codePages.get (pg % 65536) == .failed then some pg else none) pages with
    | some pg => .cause cCODE_INTEGRITY (BitVec.ofNat 32 (pg * 65536))
    | none =>
      match firstSome (fun pg => if (s.ctx (ctxKey p c)).codePages.get (pg % 65536) == .unverified then some pg else none) pages with
      | some pg => .park (pg % 65536)
      | none => .ok ((List.range n).map (fun i => match s.translateAt cl p c .code .fetch sup ((va + i) % 2 ^ 32) with
          | .ok loc _ => s.codeByte cl (ctxKey p c) ((va + i) % 2 ^ 32) loc
          | .cause _ => 0#8))

/-! ### Keyway images (R65 to R69) -/

def imgWidth (img : List Byte) : Nat := imgNat img 0x07 1

/-- The length of a guest instruction from its first parcel, by the length rules (R66). -/
def imgLength (img : List Byte) (parcel : Nat) : Option Nat :=
  firstSome (fun i =>
    let r := imgNat img (imgNat img 0x18 4 + 8 * i) 8
    if Nat.land parcel (r % 65536) = r / 65536 % 65536 then some (2 * (r / 2 ^ 32 % 4) + 2) else none) (List.range (imgNat img 0x10 1))

/-- The control word of a plane entry if it matches (R68). -/
def imgEntry (img : List Byte) (word plane i : Nat) : Option Nat :=
  let off := imgNat img 0x20 4 + 6144 * plane + 24 * i
  let ctl := imgNat img (off + 16) 8
  if ctl / 2 ^ 23 % 2 = 1 && Nat.land word (imgNat img off 8) == imgNat img (off + 8) 8 then some ctl else none

/-- The winning entry of one plane: highest PRIO, then lowest index (R68). -/
def imgPlane (img : List Byte) (word plane : Nat) : Option (Nat × Nat) :=
  (List.range 256).foldl (fun best i => match imgEntry img word plane i with
    | none => best
    | some ctl => (match best with
      | none => some (i, ctl)
      | some (_, b) => if b / 2 ^ 12 % 16 < ctl / 2 ^ 12 % 16 then some (i, ctl) else best)) none

/-- The winning entry of the planes: GENTRY and the control word (R64, R68). -/
def imgMatch (img : List Byte) (word : Nat) : Option (Nat × Nat) :=
  firstSome (fun pl => (imgPlane img word pl).map (fun x => (256 * pl + x.1, x.2))) (List.range (imgNat img 0x11 1))

/-- A field of a pattern (R67): kind, value modulo 2^32, guard mark. -/
structure GField where
  present : Bool
  kind : Nat
  value : Word
  guard : Bool
  deriving DecidableEq, Repr

/-- The eight fields of a pattern over a guest word. -/
def imgFields (img : List Byte) (pat word : Nat) : List GField :=
  (List.range 8).map (fun i =>
    let d := imgNat img (imgNat img 0x1C 4 + 64 * pat + 8 * i) 8
    let start := d % 64
    let width := d / 64 % 64
    let raw := word / 2 ^ start % 2 ^ width
    let x : Int := if d / 2 ^ 15 % 2 = 1 && width != 0 && raw / 2 ^ (width - 1) % 2 == 1 then (raw : Int) - 2 ^ width else raw
    let v : Word := BitVec.ofInt 32 (x * 2 ^ (d / 2 ^ 16 % 8)) + BitVec.ofNat 32 (d / 2 ^ 32)
    { present := width != 0, kind := d / 2 ^ 12 % 8, value := v, guard := d / 2 ^ 19 % 2 == 1 && width != 0 })

/-- The operation records of a template: word and SUBST (R69). -/
def imgOps (img : List Byte) (tmpl : Nat) : List (Nat × Nat) :=
  let t := imgNat img (imgNat img 0x24 4 + 4 * tmpl) 4
  (List.range (t / 2 ^ 13 % 8 + 1)).map (fun i =>
    let off := imgNat img 0x28 4 + 16 * (t % 8192 + i)
    (imgNat img off 8, imgNat img (off + 8) 2))

/-! ### Substitution (R70) -/

/-- Replace `n` bits of a word from bit `lo`. -/
def putBits (w lo n v : Nat) : Nat := w - w / 2 ^ lo % 2 ^ n * 2 ^ lo + v % 2 ^ n * 2 ^ lo

/-- The slots that a SUBST nibble may fill. -/
inductive SubSlot
  | d | s (lo : Nat) | data | imm | off | tgt
  deriving DecidableEq, Repr

/-- The slots of the nibbles [15:12], [11:8], [7:4], [3:0] by format (R70). -/
def subSlots : Form → List (Option SubSlot)
  | .n _ | .a _ => [some .d, some (.s 32), some (.s 21), some (.s 10)]
  | .i _ => [some .d, some (.s 32), some .imm, none]
  | .ld _ | .fence _ => [some .d, some (.s 32), some .off, none]
  | .st _ => [some .data, some (.s 32), some .off, none]
  | .b _ => [some (.s 5), some .tgt, none, none]
  | .x _ => [some .d, some (.s 32), none, none]

/-- Fill one slot with a field's value; none when the kind or the value does not fit (R70). -/
def fillSlot (w : Nat) (sl : SubSlot) (f : GField) : Option Nat :=
  let v := f.value.toInt
  let n := v.toNat
  let vec := 0 ≤ v && v ≤ 255
  let scal := 0 ≤ v && v ≤ 511
  let msk := 0 ≤ v && v ≤ 11
  if !f.present then none
  else match sl, f.kind with
  | .d, 0 => if vec then some (putBits w 43 9 n) else none
  | .d, 1 => if scal then some (putBits w 43 9 n) else none
  | .d, 4 => if msk then some (putBits w 43 9 (500 + n)) else none
  | .s lo, 0 => if vec then some (putBits w lo 11 n) else none
  | .s lo, 1 => if scal then some (putBits w lo 11 (512 + n)) else none
  | .s lo, 2 => if 0 ≤ v && v ≤ 255 then some (putBits w lo 11 (1536 + n))
                else if -128 ≤ v && v < 0 then some (putBits w lo 11 (1536 + (v + 0x180).toNat)) else none
  | .s lo, 3 => if scal then some (putBits w lo 11 (1024 + n)) else none
  | .s lo, 4 => if msk then some (putBits w lo 11 (512 + 500 + n)) else none
  | .data, 0 => if vec then some (putBits w 43 10 n) else none
  | .data, 1 => if scal then some (putBits w 43 10 (512 + n)) else none
  | .data, 4 => if msk then some (putBits w 43 10 (512 + 500 + n)) else none
  | .imm, 2 => some (putBits w 0 32 f.value.toNat)
  | .off, 2 => if -524288 ≤ v && v ≤ 524287 then some (putBits w 12 20 (f.value.toNat % 2 ^ 20)) else none
  | .tgt, 5 => some (putBits w 16 32 f.value.toNat)
  | _, _ => none

/-- Substitute the fields into one operation word; the flag says that a nibble does not fit (R70). -/
def substOp (fields : List GField) (w subst : Nat) : Nat × Bool :=
  match formOf (w / 2 ^ 54) with
  | none => (w, false)
  | some fm =>
    ((subSlots fm).zip [12, 8, 4, 0]).foldl (fun acc x =>
      let nib := subst / 2 ^ x.2 % 16
      if nib = 0 then acc
      else match x.1 with
        | none => (acc.1, true)
        | some sl =>
          match fillSlot acc.1 sl (fields.getD (nib - 1) ⟨false, 0, 0#32, false⟩) with
          | some w' => (w', acc.2)
          | none => (acc.1, true)) (w, false)

/-- Give the expansion's guard to an operation of format N or B whose own guard field is zero (R70). -/
def guardOp (k : Nat) (w : Nat) : Nat :=
  match formOf (w / 2 ^ 54) with
  | some (.n _) => if w / 2 ^ 6 % 16 = 0 then putBits w 6 4 (k + 1) else w
  | some (.b _) => if w / 2 ^ 49 % 16 = 0 then putBits w 49 4 (k + 1) else w
  | _ => w

/-! ### The checks of R54 -/

/-- A scalar group that straddles s(B-1) and s480 (R177). -/
def straddles (b : Nat) (r : RegRun) : Bool := !r.vec && r.base < b && b ≤ 480 && 480 < r.base + r.n

/-- Is every register of a run within the warp's budget (R21)? -/
def Warp.named (w : Warp) (r : RegRun) : Bool :=
  (List.range r.n).all (fun i => if r.vec then r.base + i < w.vbudget else w.scalNamed (r.base + i))

/-- Checks 1 to 6 of R54 on one operation; `filled` says which latches hold a result (R25). -/
def Warp.checkOp (w : Warp) (filled : List Bool) (r : RawOp) : Except Nat Instr :=
  match parse r.word with
  | none => .error cILLEGAL_OP
  | some p =>
    let num := r.word.toNat % 64
    let sr := match p.instr with
      | .rdsr _ | .wrsr _ => 0x20 ≤ num
      | _ => false
    if !w.isSup && (p.instr.supervisor || sr) then .error cPRIVILEGED
    else if p.bad3 || !p.instr.ok3 then .error cILLEGAL_OP
    else if r.badSub || p.bad4 || !p.instr.ok4 then .error cOPERAND_KIND
    else
      let i := p.instr
      let group := match i with
        | .stspl o | .stgng o | .stscr o | .stdom o | .sthst o => (o.data.runs (sizeRegs o.size)).any (straddles w.sbudget)
        | _ => false
      if group then .error cOPERAND_KIND
      else if !((i.reads ++ i.writes).all w.named) then .error cREG_BUDGET
      else if !(i.latchReads.all (fun k => filled.getD k false)) then .error cLATCH_RANGE
      else .ok i

/-- Checks 1 to 6 on each operation in step order; the first failure gives its cause and index. -/
def Warp.checkOps (w : Warp) : List RawOp → Nat → List Bool → Except (Nat × Nat) (List Instr)
  | [], _, _ => .ok []
  | r :: rest, k, filled =>
    match w.checkOp filled r with
    | .error c => .error (c, k)
    | .ok i =>
      match w.checkOps rest (k + 1) (i.fillsLatch :: filled.take 3) with
      | .error e => .error e
      | .ok is => .ok (i :: is)

/-- The step rules of R24 and the Position column of R258: the index of the first operation that breaks one. -/
def stepForm : List Instr → Nat → Bool → Option Nat
  | [], _, _ => none
  | i :: rest, k, side =>
    let bad := match i.pos with
      | .regOnly => false
      | .mayFault => side
      | .side => side
      | .branch => !i.e
      | .lastFaults => side || !i.e
    if bad || (k == 7 && !i.e) then some k
    else if i.e then none
    else stepForm rest (k + 1) (side || i.pos == .side)

/-! ### Beginning a step -/

/-- TADDR and TINFO of a refusal at operation `k` (R55, R64). -/
def refuseInfo (slot : Nat) (first gword ginfo : Word) (k : Nat) : Word × Word :=
  if slot = 0 then (first + BitVec.ofNat 32 (8 * k), BitVec.ofNat 32 k) else (gword, ginfo + BitVec.ofNat 32 k)

/-- TADDR and TINFO of a refusal at execution by the executing operation (R55, R406). -/
def Warp.refusal (w : Warp) : Word × Word := refuseInfo w.sp.kwslot w.step.first w.step.gword w.step.ginfo w.step.idx

/-- The outcome of a fetch that is not bytes, for the step at `pc` (R78, R181, R183). (DEDUCED, log 38: unsafe.) -/
def State.fetchFail (s : State) (u : Nat) (pc : Word) (at_ : Mask) : Fetched → State
  | .ok _ => s
  | .cause n a => s.deliver u n pc a (if n = cCODE_INTEGRITY then 0#32 else BitVec.ofNat 32 (2048 * lowest at_)) at_
  | .park pg => s.updWarp u (fun w => { w.abandon with wait := .code (s.ckOf w) pg })

/-- The words of a native step: up to eight, to the first with E = 1 (R24, R36). (DEDUCED, log 38: unsafe.) -/
def nativeWords (s : State) (cl p c : Nat) (sup : Bool) : Nat → Nat → Except Fetched (List RawOp)
  | 0, _ => .ok []
  | n + 1, va =>
    match s.fetch cl p c sup va 8 with
    | .ok b =>
      let w := wordOfBytes b
      if w.getLsbD 53 then .ok [{ word := w }]
      else match nativeWords s cl p c sup n ((va + 8) % 2 ^ 32) with
        | .ok r => .ok ({ word := w } :: r)
        | .error e => .error e
    | f => .error f

/-- A step decoded in the body that the warp's quadrant captures goes into the loop buffer (R76). -/
def State.captureStep (s : State) (u : Nat) (pc : Word) (r : RawStep) : State :=
  let q := (s.warp u).quad
  let b := (s.quad q).loopBuf
  if b.users.contains u && b.steps.length < 64 && !b.steps.any (fun e => e.1 == pc.toNat) then
    s.updQuad q (fun x => { x with loopBuf := { x.loopBuf with steps := x.loopBuf.steps.set pc.toNat r } })
  else s

/-- The step that the loop buffer holds at an address for a warp that runs its body (R76). -/
def State.loopStep (s : State) (u : Nat) (pc : Word) : Option RawStep :=
  let b := (s.quad (s.warp u).quad).loopBuf
  if b.users.contains u && b.steps.any (fun e => e.1 == pc.toNat) then some (b.steps.get pc.toNat) else none

/-- Install a decoded step, or refuse it (R54, R55). (DESIGN CHOICE, log 12: safe.) -/
def State.enterStep (s : State) (u : Nat) (pc : Word) (at_ : Mask) (rs : RawStep) : State :=
  let s := s.unbind u
  let w := s.warp u
  let len := rs.len
  let gword := rs.gword
  let ginfo := rs.ginfo
  let refuse (c k : Nat) : State :=
    let x := refuseInfo w.sp.kwslot pc gword ginfo k
    s.deliver u c pc x.1 x.2 at_
  let raw := match rs.ops with
    | r :: rest => { r with badSub := r.badSub || rs.guardBad } :: rest
    | [] => []
  match w.checkOps raw 0 [] with
  | .error (c, k) => refuse c k
  | .ok ops =>
    match stepForm ops 0 false with
    | some k => refuse cSTEP_FORM k
    | none =>
      let stepEnd := pc + BitVec.ofNat 32 len
      let g := s.gangOf w
      let s := ((s.tlbFill (quadCluster w.quad) g.part g.ctx .code pc.toNat).fillCode (quadCluster w.quad) g.part g.ctx w.isSup pc.toNat len).captureStep u pc rs
      s.setWarp u { w with
        step := { started := true, first := pc, len := len, ops := ops, issue := at_, nexts := List.replicate 32 stepEnd,
                  ginfo := ginfo, gword := gword } }

/-- TINFO of R64, OPIDX zero. -/
def guestInfo (gpat gentry slot glen : Nat) : Word := BitVec.ofNat 32 (gpat * 2 ^ 22 + gentry * 2 ^ 12 + slot * 2 ^ 8 + glen * 16)

/-- The value that the trap window shows for a field, and its descriptor (R71). (DEDUCED, log 39: unsafe.) -/
def emuField (s : State) (w : Warp) (ga : Word) (f : GField) : Word × Word :=
  if !f.present then (0#32, 0#32)
  else
    let v := f.value.toInt
    let n := v.toNat
    let desc (foor : Bool) (num : Nat) : Word := BitVec.ofNat 32 ((if foor then 2 ^ 20 else 0) + 2 ^ 19 + f.kind * 2 ^ 16 + num)
    let num := f.value.toNat % 65536
    match f.kind with
    | 0 => (f.value, desc (v < 0 || 255 < v || w.vbudget ≤ n) num)
    | 1 => let bad := v < 0 || 511 < v || !w.scalNamed n; (if bad then 0#32 else w.sword n, desc bad num)
    | 3 => let bad := v < 0 || 511 < v; (if bad then 0#32 else (s.launch (s.gangOf w).launch).consts.get n, desc bad num)
    | 4 => let bad := v < 0 || 11 < v; (if bad then 0#32 else w.mreg n, desc bad num)
    | 5 => (ga + f.value, desc false 0)
    | _ => (f.value, desc false 0)

/-- Emulation-class entry on GUEST_NOTEMPLATE (R71). In supervisor mode the cause goes to the supervisor (R343). (DEDUCED, log 39: unsafe.) -/
def State.emulate (s : State) (u : Nat) (pc : Word) (m : Mask) (gword ginfo : Word) (fields : List GField) : State :=
  let w := s.warp u
  if w.isSup then s.deliver u cGUEST_NOTEMPLATE pc gword ginfo m
  else
    let w1 := (List.range 8).foldl (fun a i =>
      let x := emuField s w pc (fields.getD i ⟨false, 0, 0#32, false⟩)
      (a.setS (480 + i) x.1).setS (488 + i) x.2) w
    let w2 := { w1.setTrap cGUEST_NOTEMPLATE pc gword ginfo m with mode := .emu }
    let w3 := { w2 with sp := { w2.sp with kwslot := 0 } }
    (s.leaveLoop u).setWarp u (w3.enterLanes m w.sp.emuvec)

/-- The decoded-operation cache holds 8,192 entries in 1,024 sets of eight (R74); the set of an address is the model's. (DESIGN CHOICE, log 73: safe.) -/
def DTag.set (t : DTag) : Nat := t.addr.toNat / 2 % 1024

/-- Put an entry first; of its set, the seven used last stay. -/
def dcachePut (l : List DEntry) (e : DEntry) : List DEntry :=
  let same := ((l.filter (fun x => x.tag.set == e.tag.set && x.tag != e.tag)).take 7).map (·.tag)
  e :: l.filter (fun x => x.tag != e.tag && (x.tag.set != e.tag.set || same.contains x.tag))

/-- A step that a buffer holds decoded is entered only where its bytes could be fetched now (R75). -/
def State.enterHeld (s : State) (u : Nat) (pc : Word) (at_ : Mask) (r : RawStep) (enter : State → State) : State :=
  let w := s.warp u
  let g := s.gangOf w
  match s.fetch (quadCluster w.quad) g.part g.ctx w.isSup pc.toNat r.len with
  | .ok _ => enter s
  | f => s.fetchFail u pc at_ f

/-- Begin a guest step (R60 to R71): the image, the length, the match, the fields, the template. -/
def State.beginGuest (s : State) (u : Nat) (pc : Word) (at_ : Mask) : State :=
  let w := s.warp u
  let g := s.gangOf w
  let slot := w.sp.kwslot
  let ks := (s.part g.part).slots.get slot
  let img := ks.image
  let cl := quadCluster w.quad
  let no (c : Nat) (a i : Word) : State := (s.unbind u).deliver u c pc a i at_
  if w.misplaced then (s.updWarp u (fun w => { w with misplaced := false })).deliver u cKEYWAY_INVALID pc 0#32 2#32 at_
  else if s.slotForeign g.part g.ctx slot then no cKEYWAY_INVALID 0#32 2#32
  else if pc.getLsbD 0 then no cMISALIGNED pc (guestInfo 0 0 slot 0)
  else
    let tag : DTag := { ck := s.ckOf w, slot := slot, gen := imgGen img, addr := pc }
    let use (e : DEntry) (s : State) : State := (s.updCluster cl (fun x => { x with dcache := dcachePut x.dcache e })).enterStep u pc at_ e.step
    match (s.cluster cl).dcache.find? (fun e => e.tag == tag) with
    | some e => s.enterHeld u pc at_ e.step (use e)
    | none =>
    match s.fetch cl g.part g.ctx w.isSup pc.toNat 2 with
    | .ok b =>
      let parcel := bytesNat b
      match imgLength img parcel with
      | none => no cGUEST_NOMATCH (BitVec.ofNat 32 parcel) (guestInfo 0 0 slot 0)
      | some glen =>
        match s.fetch cl g.part g.ctx w.isSup pc.toNat glen with
        | .ok b =>
          let gw := bytesNat b
          let gword := BitVec.ofNat 32 gw
          match imgMatch img gw with
          | none => no cGUEST_NOMATCH gword (guestInfo 0 0 slot glen)
          | some (ent, ctl) =>
            let pat := ctl / 2 ^ 16 % 64
            let ginfo := guestInfo pat ent slot glen
            let fields := imgFields img pat gw
            let gd := fields.find? (·.guard)
            let gk : Int := match gd with
              | some f => f.value.toInt
              | none => -1
            let gok := 0 ≤ gk && gk ≤ 11
            if ctl % 4096 = 0xFFF then
              let m := if gok then at_ &&& w.mreg gk.toNat else at_
              if m = 0#32 then
                ({ s.unbind u with actor := u }.updWarp u (fun w => { w with step := { started := true, first := pc, len := glen, issue := at_, nexts := List.replicate 32 (pc + BitVec.ofNat 32 glen), ginfo := ginfo, gword := gword } })).commit u
              else (s.unbind u).emulate u pc m gword ginfo fields
            else
              let ops := (imgOps img (ctl % 4096)).map (fun x =>
                let r := substOp fields x.1 x.2
                ({ word := BitVec.ofNat 64 (if gok then guardOp gk.toNat r.1 else r.1), badSub := r.2 } : RawOp))
              use { tag := tag, step := { ops := ops, len := glen, gword := gword, ginfo := ginfo, guardBad := gd.isSome && !gok } } s
        | f => s.fetchFail u pc at_ f
    | f => s.fetchFail u pc at_ f

/-- Begin a native step (R24, R36, R54). -/
def State.beginNative (s : State) (u : Nat) (pc : Word) (at_ : Mask) : State :=
  let w := s.warp u
  let g := s.gangOf w
  if pc.toNat % 8 != 0 then (s.unbind u).deliver u cMISALIGNED pc pc 0#32 at_
  else match nativeWords s (quadCluster w.quad) g.part g.ctx w.isSup 8 pc.toNat with
    | .ok raw => s.enterStep u pc at_ { ops := raw, len := 8 * raw.length }
    | .error f => s.fetchFail u pc at_ f

/-- Does an enabled code breakpoint stand at the address under the slot (R362)? -/
def State.breakAt (s : State) (ck slot : Nat) (pc : Word) : Bool :=
  (s.ctx ck).dbg.breaks.any (fun b => b.2.enabled && b.2.addr == pc && b.2.slot == slot)

/-- Begin the warp's next step: choose the issue set, meet a code breakpoint, take the step from the loop buffer or fetch it, decode
and check. A fetch that waits for its page starts no step (R284). -/
def State.beginStep (s : State) (u : Nat) : State :=
  let w := s.warp u
  match w.issuePc with
  | none => s
  | some pc =>
    let at_ := w.issueSet
    let s := { s.checkLoop u pc with turns := s.turns + 1 }
    let s := s.updWarp u (fun w => { w with lastStart := s.turns + 1, step := {} })
    let t :=
      if s.breakAt (s.ckOf w) w.sp.kwslot pc then
        s.deliver u cBREAKPOINT pc pc 0xFFFFFFFF#32 at_
      else match s.loopStep u pc with
      | some r => s.enterHeld u pc at_ r (fun s => s.enterStep u pc at_ r)
      | none => if w.sp.kwslot = 0 then s.beginNative u pc at_
      else s.beginGuest u pc at_
    match (t.warp u).wait with
    | .code _ _ => t.updWarp u (fun x => { x with lastStart := w.lastStart })
    | _ => t

end Sys2Proof.Machine
end

