-- ==== Sys2Proof/Machine/Approx.lean ====
section
/-! DEFINITION. The approximate functions (R130) and the twiddle factors (R140): exact cases, special operands, and values to 320
fractional bits that round correctly; under f32 a fixed function of the operand within the bound. -/
set_option autoImplicit false

namespace Sys2Proof.Machine

/-! ### Fixed point with 320 fractional bits -/

def fxOne : Nat := 2 ^ 320
/-- 2 pi. -/
def fxTwoPi : Nat := 13420802360424337830311681948440006481608388178854297901454212848703426437343610760199000777828079
/-- ln 2. -/
def fxLn2 : Nat := 1480553391661173448385607439722553250922680800745876974795605978609098082859138712941075737848984

def fxMul (a b : Nat) : Nat := a * b / fxOne

/-- The series of e^x from its term of order `k` on; `term` is the one before. -/
def expSum : Nat → Nat → Nat → Nat → Nat → Nat
  | 0, _, _, _, acc => acc
  | fuel + 1, k, x, term, acc => let t := fxMul term x / k; expSum fuel (k + 1) x t (acc + t)

/-- e^x for 0 ≤ x < 1. -/
def fxExp (x : Nat) : Nat := expSum 90 1 x fxOne fxOne

/-- The series y + y^3/3 + y^5/5 + ... -/
def atanhSum : Nat → Nat → Nat → Nat → Nat → Nat
  | 0, _, _, _, acc => acc
  | fuel + 1, k, y2, pow, acc => atanhSum fuel (k + 1) y2 (fxMul pow y2) (acc + pow / (2 * k + 1))

/-- An alternating series with terms t_k = t_(k-1) x2 / ((2k + o)(2k + o + 1)): the positive part, then the negative one. -/
def altSum : Nat → Nat → Nat → Nat → Nat → Nat → Nat → Nat
  | 0, _, _, _, _, pos, ng => pos - ng
  | fuel + 1, k, o, x2, t, pos, ng =>
    let n := fxMul t x2 / ((2 * k + o) * (2 * k + o + 1))
    if k % 2 = 0 then altSum fuel (k + 1) o x2 n (pos + t) ng else altSum fuel (k + 1) o x2 n pos (ng + t)

def fxSin (x : Nat) : Nat := altSum 50 0 2 (fxMul x x) x 0 0
def fxCos (x : Nat) : Nat := altSum 50 0 1 (fxMul x x) fxOne 0 0

/-- A value known to 320 bits and not exact: its last half unit stands for the rest. (DEDUCED, log 16: unsafe.) -/
def fxReal (neg : Bool) (v : Nat) : XReal := .fin neg (2 * v + 1) (2 ^ 321)

/-! ### Functions of an exact value: the value, its flags, and whether it is exact -/

/-- What a function gives: its value, the flags of its special operands, whether the value is exact. -/
structure FnVal where
  x : XReal
  fl : Nat := 0
  exact : Bool := true
  deriving DecidableEq, Repr

/-- Is n / d a power of two? -/
def isPow2 (n d : Nat) : Bool := let p := pow2 (floorLog2 n d); n * p.2 == d * p.1

def rcpVal : XReal → FnVal
  | .nan s => { x := .nan false, fl := if s then fINVALID else 0 }
  | .inf s => { x := .fin s 0 1 }
  | .fin s n d => if n = 0 then { x := .inf s, fl := fDIV_ZERO } else { x := .fin s d n, exact := isPow2 n d }

def rsqVal : XReal → FnVal
  | .nan s => { x := .nan false, fl := if s then fINVALID else 0 }
  | .inf s => if s then { x := .nan false, fl := fINVALID } else { x := .fin false 0 1 }
  | .fin s n d =>
    if n = 0 then { x := .inf s, fl := fDIV_ZERO }
    else if s then { x := .nan false, fl := fINVALID }
    else { x := .fin false (sqrtVal d n).1 (sqrtVal d n).2, exact := isPow2 n d && floorLog2 n d % 2 == 0 }

/-- 2^a; beyond 4096 in magnitude the exponent is cut, which changes no rounded result. -/
def exp2Val : XReal → FnVal
  | .nan s => { x := .nan false, fl := if s then fINVALID else 0 }
  | .inf s => if s then { x := .fin false 0 1 } else { x := .inf false }
  | .fin s n d =>
    if 4096 * d < n then { x := (XReal.fin false 3 2).scale (if s then -4096 else 4096), exact := false }
    else
      let e : Int := if s then -((n : Int) / d) - (if n % d = 0 then 0 else 1) else n / d
      let r := if n % d = 0 then 0 else if s then d - n % d else n % d
      if r = 0 then { x := (XReal.fin false 1 1).scale e }
      else { x := (fxReal false (fxExp (fxMul (r * fxOne / d) fxLn2))).scale e, exact := false }

def log2Val : XReal → FnVal
  | .nan s => { x := .nan false, fl := if s then fINVALID else 0 }
  | .inf s => if s then { x := .nan false, fl := fINVALID } else { x := .inf false }
  | .fin s n d =>
    if n = 0 then { x := .inf true, fl := fDIV_ZERO }
    else if s then { x := .nan false, fl := fINVALID }
    else
      let e := floorLog2 n d
      let p := pow2 e
      let a := n * p.2
      let b := d * p.1
      if a == b then { x := XReal.ofInt e }
      else
        let y := (a - b) * fxOne / (a + b)
        let v := 2 * atanhSum 110 0 (fxMul y y) y 0 * fxOne / fxLn2
        let t : Int := e * fxOne + v
        { x := if t < 0 then .fin true (2 * t.natAbs - 1) (2 ^ 321) else .fin false (2 * t.natAbs + 1) (2 ^ 321), exact := false }

/-- Cosine and sine of 2 pi n / d, n / d in turns. -/
def turnVals (n d : Nat) : FnVal × FnVal :=
  let q := 4 * (n % d) / d
  let r := 4 * (n % d) % d
  if r = 0 then
    match q with
    | 0 => ({ x := .fin false 1 1 }, { x := .fin false 0 1 })
    | 1 => ({ x := .fin false 0 1 }, { x := .fin false 1 1 })
    | 2 => ({ x := .fin true 1 1 }, { x := .fin false 0 1 })
    | _ => ({ x := .fin false 0 1 }, { x := .fin true 1 1 })
  else
    let th := fxTwoPi * r / (4 * d)
    let sn := fxSin th
    let cs := fxCos th
    let mk (neg : Bool) (v : Nat) : FnVal := { x := fxReal neg v, exact := false }
    match q with
    | 0 => (mk false cs, mk false sn)
    | 1 => (mk true sn, mk false cs)
    | 2 => (mk true cs, mk true sn)
    | _ => (mk false sn, mk true cs)

def sinVal : XReal → FnVal
  | .nan s => { x := .nan false, fl := if s then fINVALID else 0 }
  | .inf _ => { x := .nan false, fl := fINVALID }
  | .fin s n d => let v := (turnVals n d).2; if s then { v with x := v.x.neg } else v

def cosVal : XReal → FnVal
  | .nan s => { x := .nan false, fl := if s then fINVALID else 0 }
  | .inf _ => { x := .nan false, fl := fINVALID }
  | .fin _ n d => (turnVals n d).1

/-! ### The instructions' results -/

/-- The approximate functions, in the order of their opcodes. -/
inductive Approx
  | rcp | rsq | exp2 | log2 | sin | cos
  deriving DecidableEq, Repr

def Approx.val : Approx → XReal → FnVal
  | .rcp => rcpVal
  | .rsq => rsqVal
  | .exp2 => exp2Val
  | .log2 => log2Val
  | .sin => sinVal
  | .cos => cosVal

def Approx.num : Approx → Nat
  | .rcp => 0 | .rsq => 1 | .exp2 => 2 | .log2 => 3 | .sin => 4 | .cos => 5

/-- Is |a - b| at most k 2^e? -/
def closeTo (a b : XReal) (k : Nat) (e : Int) : Bool :=
  match a, b with
  | .fin s n d, .fin t m f =>
    let x : Int := (if s then -((n * f : Nat) : Int) else (n * f : Nat)) - (if t then -((m * d : Nat) : Int) else (m * d : Nat))
    let p := pow2 e
    x.natAbs * p.2 ≤ k * p.1 * d * f
  | _, _ => false

/-- The exponent of one unit in the last place of FP32 at a value. -/
def ulpExp : XReal → Int
  | .fin _ n d => if n = 0 then -149 else max (floorLog2 n d) (-126) - 23
  | _ => -149

/-- Is an FP32 result within the bound of R130 of the exact value `x` of the function at `a`? (DESIGN CHOICE, log 6: safe.) -/
def Approx.within (f : Approx) (a x c : XReal) : Bool :=
  match f with
  | .rcp => closeTo c x 1 (ulpExp x)
  | .rsq | .exp2 => closeTo c x 2 (ulpExp x)
  | .log2 =>
    if !a.lt (.fin false 1 2) && !(XReal.fin false 2 1).lt a then closeTo c x 1 (-22) else closeTo c x 2 (ulpExp x)
  | .sin => closeTo c x 1 (-22) && !c.isZero && !(XReal.fin false 1 1).lt c.abs
  | .cos => closeTo c x 1 (-22) && !(XReal.fin false 1 1).lt c.abs

/-- The result of an approximate function on one element of format `f` (R130). Under f32 a result that is not exact is the
package's own value where that lies within the bound, and the nearest one elsewhere. (DESIGN CHOICE, log 6: safe.) -/
def Approx.result (g : Approx) (f : Fmt) (code : Nat) : Flagged :=
  let a := decodeVal f code
  let v := g.val a
  let r := round f .rne false v.x
  if v.exact || f != .f32 || Nat.land r.2 fOVERFLOW != 0 then (r.1, v.fl ||| r.2)
  else
    let c := (Config.approxF32 g.num (BitVec.ofNat 32 code)).toNat
    let code := if g.within a v.x (decodeVal .f32 c) then c else r.1
    let small := (decodeVal .f32 code).abs.lt ((XReal.fin false 1 1).scale (-126))
    (code, if small then fINEXACT ||| fUNDERFLOW else fINEXACT)

/-- One part of a twiddle factor (R140): rounded, INEXACT unless exact. -/
def twidPart (f : Fmt) (m : Rnd) (v : FnVal) (negate : Bool) : Flagged :=
  round f m false (if negate then v.x.neg else v.x)

end Sys2Proof.Machine
end

