-- ==== Sys2Proof/Machine/Operands.lean ====
section
/-! DEFINITION. Reading operands and writing results (R25, R26, R46, R47, R50, R51, R107, R350). -/
set_option autoImplicit false

namespace Sys2Proof.Machine

/-! ### Literals and floating constants (R47, R50) -/

/-- The value of floating constant `k`; an irrational one is given to 200 bits with a sticky bit, which rounds as the exact
value does in every format. Entries that depend on the type are not here. (DEDUCED, log 16: unsafe.) -/
def fcReal : Nat → XReal
  | 0 => .fin false 0 1
  | 1 => .fin false 1 2
  | 2 => .fin false 1 1
  | 3 => .fin false 2 1
  | 4 => .fin false 4 1
  | 5 => .fin false 8 1
  | 6 => .fin true 1 2
  | 7 => .fin true 1 1
  | 8 => .fin true 2 1
  | 9 => .fin true 4 1
  | 10 => .fin false 1 4
  | 11 => .fin false 1 8
  | 12 => .fin false 2272553576084360916141657902949647315979581976043234410928603 (2 ^ 201)
  | 13 => .fin false 2227689149425263439092512302195094612666544587098181501475605 (2 ^ 201)
  | 14 => .fin false 4636643094936509730346774942367980342974217517846598217458221 (2 ^ 201)
  | 15 => .inf false
  | 16 => .fin true 0 1
  | 17 => .fin false 3 1
  | 18 => .fin false 5 1
  | 19 => .fin false 10 1
  | 20 => .fin false 16 1
  | 21 => .fin false 32 1
  | 22 => .fin false 64 1
  | 23 => .fin false 128 1
  | 24 => .fin false 256 1
  | 25 => .fin false 1024 1
  | 26 => .fin false 65536 1
  | 27 => .fin false 1 65536
  | 28 => .fin false 1 16
  | 29 => .fin false 1 256
  | 30 => .fin false 1 1024
  | 31 => .fin false 1 16777216
  | 32 => .fin false 10096689509235987743946820282484873672429286842977325943070737 (2 ^ 201)
  | 33 => .fin false 5048344754617993871973410141242436836214643421488662971535369 (2 ^ 201)
  | 34 => .fin false 2524172377308996935986705070621218418107321710744331485767685 (2 ^ 201)
  | 35 => .fin false 1023008531944964742713634320094839494465182657242203849507327 (2 ^ 201)
  | 36 => .fin false 20193379018471975487893640564969747344858573685954651886141473 (2 ^ 201)
  | 37 => .fin false 8736220970337460488741393287122358959374519834489617456082255 (2 ^ 201)
  | 38 => .fin false 7400223172151514045631711097716426068502233044391610318091295 (2 ^ 201)
  | 39 => .fin false 10676265271934583048462883678181006595991149465676359425225869 (2 ^ 201)
  | 40 => .fin false 967473104991140529225915770132072035628153626989167312587147 (2 ^ 201)
  | 41 => .fin false 1395768650764165873399214159395619981314112136938211030204987 (2 ^ 201)
  | 42 => .fin false 4545107152168721832283315805899294631959163952086468821857205 (2 ^ 201)
  | 43 => .fin false 5566596674543872778483899951475121474370772000591153489457551 (2 ^ 201)
  | 44 => .fin false 1855532224847957592827966650491707158123590666863717829819183 (2 ^ 201)
  | 45 => .fin false 1 3
  | 46 => .fin false 2 3
  | 47 => .fin false 3 2
  | 48 => .fin false 3 4
  | 49 => .fin true 3 1
  | 50 => .fin true 8 1
  | 51 => .fin true 1 4
  | 52 => .inf true
  | 53 => .nan false
  | 59 => .fin false 1 10
  | 60 => .fin false 1 5
  | 61 => .fin false 1 1000
  | 62 => .fin false 1000000 1
  | 63 => .fin false 2147483648 1
  | _ => .nan false

/-- Floating constant `k` in a format (R50). -/
def fconst (f : Fmt) (k : Nat) : Nat :=
  match k with
  | 54 => f.maxCode
  | 55 => 2 ^ f.tbits
  | 56 => 1
  | 57 => f.maxCode + f.signWeight
  | 58 => (round f .rne false (.fin false 1 (2 ^ f.tbits))).1
  | k => (round f .rne false (fcReal k)).1

/-- The same code in every element; the real part alone under a complex type (R47). -/
def replicateCode (t : Ty) (c : Nat) : Nat := (List.range t.elems).foldl (fun a k => a + c * 2 ^ (t.bits * k)) 0

/-- An integer literal at a type (R47). -/
def litVal (t : Ty) (z : Int) : Nat :=
  replicateCode t (if t.isInt then keep t.bits z else (round (Fmt.ofTy t) .rne false (XReal.ofInt z)).1)

/-- `src(k)` in lane `l` at a type (R51): the register values before the step. -/
def State.src (s : State) (t : Ty) (x : Src) (l : Nat) : Nat :=
  let w := s.me
  match x with
  | .vec n => (w.vword n.toNat l).toNat + (if t.is64 then 2 ^ 32 * (w.vword (n.toNat + 1) l).toNat else 0)
  | .latch k => (Lanes.at ((w.step.latches.getD k.toNat none).getD []) l).toNat
  | .scal n => (w.sword n.toNat).toNat + (if t.is64 then 2 ^ 32 * (w.sword (n.toNat + 1)).toNat else 0)
  | .const b k =>
    let c := (s.launch (s.gangOf w).launch).consts
    let i := 128 * b.toNat + k.toNat
    (c.get i).toNat + (if t.is64 then 2 ^ 32 * (c.get (i + 1)).toNat else 0)
  | .lit n => litVal t n.toNat
  | .nlit n => litVal t ((n.toNat : Int) - 128)
  | .fc k => replicateCode t (fconst (Fmt.ofTy t) k.toNat)

/-- A 32-bit source as a word. -/
def State.srcW (s : State) (x : Src) (l : Nat) : Word := BitVec.ofNat 32 (s.src .n32 x l)

/-- Scalar register `r` of the executing warp. -/
def State.sreg (s : State) (r : Nat) : Word := s.me.sword r

/-! ### Poisoned reads (R350) -/

/-- The first tagged register among `runs`, lanes `m` of a vector one: the cause and the trap registers. -/
def Warp.poisonIn (w : Warp) (m : Mask) (runs : List RegRun) : Option (Nat × Word × Word × Mask) :=
  firstSome' (fun (r : RegRun) => firstSome' (fun i =>
    let n := r.base + i
    if r.vec then
      let hit := Mask.ofFn (fun l => m.has l && (w.regs.vtag.get (32 * n + l)).cause != 0)
      if hit = 0#32 then none
      else
        let t := w.regs.vtag.get (32 * n + lowest hit)
        some (t.cause, t.addr, BitVec.ofNat 32 n, hit)
    else
      let t := w.regs.stag.get n
      if t.cause = 0 then none else some (t.cause, t.addr, BitVec.ofNat 32 (512 + n), w.step.issue)) (List.range r.n)) runs
where
  /-- The first answer in list order. -/
  firstSome' {α β : Type} (f : α → Option β) : List α → Option β
    | [] => none
    | a :: r => match f a with
      | some b => some b
      | none => firstSome' f r

/-- A latch that holds the value of a reply which has failed in one of the lanes `m` (R350). -/
def Warp.poisonLatch (w : Warp) (m : Mask) (ks : List Nat) : Option (Nat × Word × Word × Mask) :=
  (ks.filterMap (fun k => match w.step.lrep.getD k none with
    | none => none
    | some id =>
      let r := w.replies.get id
      let x := r.failing (m &&& r.lanes)
      if x.1 = 0 then none else some (x.1, r.addrs.at (lowest x.2), BitVec.ofNat 32 r.base, x.2))).head?

/-- Does the operation read a tagged word? -/
def Warp.poisoned (w : Warp) (i : Instr) (m : Mask) : Option (Nat × Word × Word × Mask) :=
  (w.poisonIn m i.reads).or (w.poisonLatch m i.latchReads)

/-- Go on with an operation unless it reads tagged words (R350). Once the step's side effect has performed nothing fails (R30):
what a later operation reads was looked at before it performed. -/
def State.orPoison (s : State) (p : Option (Nat × Word × Word × Mask)) (k : State → State) : State :=
  match p with
  | some (c, addr, info, lanes) => if s.me.step.performed then k s else s.raise c addr info lanes
  | none => k s

/-- Go on with an operation unless it reads a tagged word in the lanes `m`. -/
def State.checked (s : State) (i : Instr) (m : Mask) (k : State → State) : State := s.orPoison (s.me.poisoned i m) k

/-! ### The lanes that an operation reads -/

/-- The subgroup size of a control literal, at most the width of the warp (R73, R141). -/
def Warp.sgSize (w : Warp) (ctl : Nat) : Nat := max 1 (min (2 ^ (ctl % 8)) w.present.lanes.length)

/-- The base lane of lane `l`'s subgroup. -/
def sgBase (size l : Nat) : Nat := l - l % size

/-- The lane that lane `l` of VSHFL reads (R143). -/
def shflLane (size mode n l : Nat) : Nat :=
  let b := sgBase size l
  let j := l % size
  let j' : Int := match mode with
    | 0 => ((n % size : Nat) : Int)
    | 1 => (j : Int) - n
    | 2 => (j : Int) + n
    | _ => ((Nat.xor j (n % size) : Nat) : Int)
  if 0 ≤ j' && j' < size then b + j'.toNat else l

/-- The lane whose S0 each lane of a VSHFL takes (R143): n is the unsigned element 0 of src(1). -/
def State.shflFrom (s : State) (o : NOp) (l : Nat) : Nat :=
  shflLane (s.me.sgSize o.s2.ctlVal) (o.s2.ctlVal / 8 % 4) (s.src o.ty o.s1 l % 2 ^ o.ty.bits) l
/-- The lane that VBCAST reads for lane `l`: L is a 32-bit word under every type. (DEDUCED, log 89: unsafe.) -/
def State.bcastFrom (s : State) (o : NOp) (l : Nat) : Nat :=
  sgBase (s.me.sgSize o.s1.ctlVal) l + s.src .n32 o.s2 0 % 32 % s.me.sgSize o.s1.ctlVal

/-- The lanes from which the lanes `m` read. -/
def readFrom (m : Mask) (f : Nat → Nat) : Mask := Mask.ofFn (fun k => m.lanes.any (fun l => f l == k))

/-- The tagged words of a cross-lane operation: S0 in the lanes `from_`, the other sources in `m`. -/
def Warp.poisonCross (w : Warp) (i : Instr) (n : Nat) (s0 : Src) (from_ m : Mask) : Option (Nat × Word × Word × Mask) :=
  ((w.poisonIn from_ (s0.runs n)).or (w.poisonLatch from_ s0.latches)).or
    ((w.poisonIn m (i.reads.drop (s0.runs n).length)).or (w.poisonLatch m (i.latchReads.drop s0.latches.length)))

/-- The lane that SLANE reads; no lane if it is absent (R119). -/
def State.laneRead (s : State) (o : NOp) : Mask :=
  let k := s.src .n32 o.s1 0 % 32
  if s.me.present.has k then Mask.single k else 0#32

/-- The tagged words that an operation reads (R350): a cross-lane one reads other lanes than its own. -/
def State.tagRead (s : State) (i : Instr) : Option (Nat × Word × Word × Mask) :=
  match i with
  | .vshfl o => s.me.poisonCross i (if o.ty.is64 then 2 else 1) o.s0 (readFrom (s.me.execSet o.g) (s.shflFrom o)) (s.me.execSet o.g)
  | .vbcast o => s.me.poisonCross i (if o.ty.is64 then 2 else 1) o.s0 (readFrom (s.me.execSet o.g) (s.bcastFrom o)) (s.me.execSet o.g)
  | .slane o => s.me.poisoned i (s.laneRead o)
  | _ => s.me.poisoned i (s.me.execSet i.guard)

/-! ### Looking ahead of a side effect (R6, R30) -/

/-- Latches as the operation `j` places after the executing one finds them, without the results between. -/
def StepCtx.shifted (c : StepCtx) (j : Nat) : StepCtx :=
  { c with latches := List.replicate j none ++ c.latches, lrep := List.replicate j none ++ c.lrep }

/-- The tagged words that a later operation of the step reads: it must not fail once the side effect has performed. A VSHFL that
takes its lane numbers from a latch still to be filled is taken to read its own lanes. (DESIGN CHOICE, log 71: unsafe.) -/
def State.laterPoison (s : State) : Option (Nat × Word × Word × Mask) :=
  ((s.me.step.ops.drop 1).zipIdx).findSome? (fun x =>
    (s.updMe (fun w => { w with step := w.step.shifted (x.2 + 1) })).tagRead x.1)

/-- The side effect of an operation that has passed its checks performs, unless an earlier condition traps or a later operation of the
step would fail (R6, R30, R349). -/
def State.performs (s : State) (e : Bool) (k : State → State) : State :=
  s.orArith (fun s => match (if e then none else s.laterPoison) with
    | some (c, addr, info, lanes) => s.faultWarp s.actor c addr info lanes
    | none => k s.perform)

/-! ### Results (R25, R26, R51, R107) -/

/-- The low and high words of a value by lane. -/
def lowWords (f : Nat → Nat) : Lanes := Lanes.ofFn (fun l => BitVec.ofNat 32 (f l))
def highWords (f : Nat → Nat) : Lanes := Lanes.ofFn (fun l => BitVec.ofNat 32 (f l / 2 ^ 32))

/-- The free value of lane `l` at the operation in progress. (DESIGN CHOICE, log 4: safe.) -/
def State.freeAt (s : State) (l : Nat) : Word := s.freeWord s.me s.me.step.idx l

/-- A value with one in the lanes `m` alone: elsewhere a free value stands. (DEDUCED, log 11: safe.) -/
def State.freeOut (s : State) (m : Mask) (v : Lanes) : Lanes := Lanes.ofFn (fun l => if m.has l then v.at l else s.freeAt l)

/-- A vector result: b0 takes every lane's value (R51); the lanes `m` of D are written unless V = 1, with their flags. -/
def State.putV (s : State) (e v : Bool) (d : Nat) (m : Mask) (wide : Bool) (f : Nat → Flagged) : State :=
  let rs := (List.range 32).map f
  let val (l : Nat) : Nat := (rs.getD l (0, 0)).1
  let buf := if v then [] else Buf.vec d m (lowWords val) :: (if wide then [Buf.vec (d + 1) m (highWords val)] else [])
  s.finish e (some (lowWords val)) buf (condsOf s.me.step.idx m (fun l => (rs.getD l (0, 0)).2))

/-- Several vector results of one operation, in consecutive registers from `d` (pairs if wide); b0 takes the first. -/
def State.putVs (s : State) (e v : Bool) (d : Nat) (m : Mask) (wide : Bool) (fs : List (Nat → Flagged)) : State :=
  let st := if wide then 2 else 1
  let buf := if v then [] else (fs.zipIdx).flatMap (fun p =>
    let rs := (List.range 32).map p.1
    let val (l : Nat) : Nat := (rs.getD l (0, 0)).1
    Buf.vec (d + st * p.2) m (lowWords val) :: (if wide then [Buf.vec (d + st * p.2 + 1) m (highWords val)] else []))
  let f0 := fs.headD (fun _ => (0, 0))
  s.finish e (some (lowWords (fun l => (f0 l).1))) buf (condsOf s.me.step.idx m (fun l => fs.foldl (fun a f => a ||| (f l).2) 0))

/-- A scalar result, written once if `m` is not empty. -/
def State.putS (s : State) (e v : Bool) (d : Nat) (m : Mask) (wide : Bool) (x : Nat) : State :=
  let buf := if v || m = 0#32 then [] else Buf.scal d (BitVec.ofNat 32 x) :: (if wide then [Buf.scal (d + 1) (BitVec.ofNat 32 (x / 2 ^ 32))] else [])
  s.finish e (some (Lanes.splat (BitVec.ofNat 32 x))) buf []

/-- A mask written by a vector instruction: new in the lanes `m`, old in the other present lanes, 0 in absent ones (R107). (DEDUCED, log 13: unsafe.) -/
def Warp.mergeMask (w : Warp) (r : Nat) (m new : Mask) : Mask := ((w.sword r &&& ~~~m) ||| (new &&& m)) &&& w.present

/-- The write of a merged mask: its tag goes only if every present lane's bit is written (R350). -/
def Warp.maskWrite (w : Warp) (r : Nat) (m x : Mask) : Buf := if w.present &&& ~~~m = 0#32 then .scal r x else .mscal r x

/-- A merged mask as the destination; under V = 1 it goes only to b0 in every lane. (DEDUCED, log 13: unsafe.) -/
def State.putM (s : State) (e v : Bool) (d : Nat) (m new : Mask) (fl : Nat → Nat) : State :=
  let x := s.me.mergeMask d m new
  s.finish e (some (Lanes.splat x)) (if v || m = 0#32 then [] else [s.me.maskWrite d m x]) (condsOf s.me.step.idx m fl)

/-! ### The common shape of a format N operation -/

/-- A vector operation: `f` gives each lane's value and flags. -/
def State.vop (s : State) (i : Instr) (o : NOp) (wide : Bool) (f : Nat → Flagged) : State :=
  let m := s.me.execSet o.g
  s.checked i m (fun s => s.putV o.e o.v o.d.toNat m wide f)

/-- A scalar operation with one uniform result. -/
def State.sop (s : State) (i : Instr) (o : NOp) (wide : Bool) (x : Nat) : State :=
  let m := s.me.execSet o.g
  s.checked i m (fun s => s.putS o.e o.v o.d.toNat m wide x)

/-- A vector operation that writes a mask: `f` gives each lane's bit and flags. -/
def State.mop (s : State) (i : Instr) (o : NOp) (f : Nat → Bool × Nat) : State :=
  let m := s.me.execSet o.g
  s.checked i m (fun s => s.putM o.e o.v o.d.toNat m (Mask.ofFn (fun l => (f l).1)) (fun l => (f l).2))

/-- An operation that writes no register (R25). -/
def State.putNone (s : State) (e : Bool) (buf : List Buf) : State := s.finish e none buf []

end Sys2Proof.Machine
end

