-- ==== Sys2Proof/Machine/Integer.lean ====
section
/-! DEFINITION. The integer vector and scalar instructions (R106 to R119). -/
set_option autoImplicit false

namespace Sys2Proof.Machine

/-- The outcome of every instruction: its next state. -/
abbrev Out := Host.Outcome State Fault Refusal

/-- One lane of a vector instruction with element function `f` on its three sources (R106). -/
def State.intAt (s : State) (o : NOp) (f : IntFn) (l : Nat) : Flagged :=
  intLane o.ty f (s.src o.ty o.s0 l) (s.src o.ty o.s1 l) (s.src o.ty o.s2 l)

/-- A vector instruction with element function `f`. -/
def State.vint (s : State) (i : Instr) (o : NOp) (f : IntFn) : State := s.vop i o o.ty.is64 (s.intAt o f)

/-- A scalar instruction with element function `f`: lane 0 of each source, no flag (R109, R118). -/
def State.sint (s : State) (i : Instr) (o : NOp) (f : IntFn) : State := s.sop i o o.ty.is64 (s.intAt o f 0).1

/-- VADD (R111). -/
def execVadd (o : NOp) (s : State) : Out := .next (s.vint (.vadd o) o fAdd)

/-- VSUB (R111). -/
def execVsub (o : NOp) (s : State) : Out := .next (s.vint (.vsub o) o fSub)

/-- VMUL (R111). -/
def execVmul (o : NOp) (s : State) : Out := .next (s.vint (.vmul o) o fMul)

/-- VMULH (R111). -/
def execVmulh (o : NOp) (s : State) : Out := .next (s.vint (.vmulh o) o fMulh)

/-- VMAD (R111). -/
def execVmad (o : NOp) (s : State) : Out := .next (s.vint (.vmad o) o fMad)

/-- VDIV (R113). -/
def execVdiv (o : NOp) (s : State) : Out := .next (s.vint (.vdiv o) o fDiv)

/-- VREM (R113). -/
def execVrem (o : NOp) (s : State) : Out := .next (s.vint (.vrem o) o fRem)

/-- VMIN (R111). -/
def execVmin (o : NOp) (s : State) : Out := .next (s.vint (.vmin o) o fMin)

/-- VMAX (R111). -/
def execVmax (o : NOp) (s : State) : Out := .next (s.vint (.vmax o) o fMax)

/-- VABS (R111). -/
def execVabs (o : NOp) (s : State) : Out := .next (s.vint (.vabs o) o fAbs)

/-- VSAT (R111). -/
def execVsat (o : NOp) (s : State) : Out := .next (s.vint (.vsat o) o (fSat o.s2.ctlVal))

/-- VAND (R111). -/
def execVand (o : NOp) (s : State) : Out := .next (s.vint (.vand o) o fAnd)

/-- VOR (R111). -/
def execVor (o : NOp) (s : State) : Out := .next (s.vint (.vor o) o fOr)

/-- VXOR (R111). -/
def execVxor (o : NOp) (s : State) : Out := .next (s.vint (.vxor o) o fXor)

/-- VANDN (R111). -/
def execVandn (o : NOp) (s : State) : Out := .next (s.vint (.vandn o) o fAndn)

/-- VSHL (R114). -/
def execVshl (o : NOp) (s : State) : Out := .next (s.vint (.vshl o) o fShl)

/-- VSHR (R114). -/
def execVshr (o : NOp) (s : State) : Out := .next (s.vint (.vshr o) o fShr)

/-- VSAR (R114). -/
def execVsar (o : NOp) (s : State) : Out := .next (s.vint (.vsar o) o fSar)

/-- VROT (R114). -/
def execVrot (o : NOp) (s : State) : Out := .next (s.vint (.vrot o) o fRot)

/-- VFUNNEL (R114). -/
def execVfunnel (o : NOp) (s : State) : Out := .next (s.vint (.vfunnel o) o fFunnel)

/-- VBFE (R115). -/
def execVbfe (o : NOp) (s : State) : Out := .next (s.vint (.vbfe o) o fBfe)

/-- VBFI (R115). -/
def execVbfi (o : NOp) (s : State) : Out := .next (s.vint (.vbfi o) o fBfi)

/-- VPOPC (R111). -/
def execVpopc (o : NOp) (s : State) : Out := .next (s.vint (.vpopc o) o fPopc)

/-- VCLZ (R111). -/
def execVclz (o : NOp) (s : State) : Out := .next (s.vint (.vclz o) o fClz)

/-- VCTZ (R111). -/
def execVctz (o : NOp) (s : State) : Out := .next (s.vint (.vctz o) o fCtz)

/-- VBREV (R111). -/
def execVbrev (o : NOp) (s : State) : Out := .next (s.vint (.vbrev o) o fBrev)

/-- VPERMB (R116). -/
def execVpermb (o : NOp) (s : State) : Out := .next (s.vint (.vpermb o) o fPermb)

/-- VMOV (R111). -/
def execVmov (o : NOp) (s : State) : Out := .next (s.vint (.vmov o) o fMov)

/-- The carry chains (R112): the sum to D, the carries merged into the mask of S2 in the same commit, also under V = 1. -/
def State.carryOp (s : State) (i : Instr) (o : NOp) (f : Nat → Nat → Nat → Nat → Nat × Bool) : State :=
  let m := s.me.execSet o.g
  s.checked i m (fun s =>
    let k := match o.s2 with
      | .scal n => n.toNat
      | _ => 500
    let mk := s.me.sword k
    let at_ (l : Nat) : Nat × Bool := f o.ty.bits (s.src o.ty o.s0 l) (s.src o.ty o.s1 l) (if mk.getLsbD l then 1 else 0)
    let cm := if m = 0#32 then [] else [s.me.maskWrite k m (s.me.mergeMask k m (Mask.ofFn (fun l => (at_ l).2)))]
    let val (l : Nat) : Nat := (at_ l).1
    let buf := if o.v then [] else Buf.vec o.d.toNat m (lowWords val) :: (if o.ty.is64 then [Buf.vec (o.d.toNat + 1) m (highWords val)] else [])
    s.finish o.e (some (lowWords val)) (buf ++ cm) [])

/-- VADDC (R112). -/
def execVaddc (o : NOp) (s : State) : Out := .next (s.carryOp (.vaddc o) o addCarry)

/-- VSUBB (R112). -/
def execVsubb (o : NOp) (s : State) : Out := .next (s.carryOp (.vsubb o) o subBorrow)

/-- VMADW (R111): the exact 32-bit product plus a 64-bit addend, kept in 64 bits. -/
def execVmadw (o : NOp) (s : State) : Out :=
  let wide : Ty := if o.ty == .i32 then .i64 else .n64
  .next (s.vop (.vmadw o) o true (fun l =>
    let a := readInt o.ty.signed 32 (s.src o.ty o.s0 l)
    let b := readInt o.ty.signed 32 (s.src o.ty o.s1 l)
    let c := readInt o.ty.signed 64 (s.src wide o.s2 l)
    (keep 64 (a * b + c), 0)))

/-- VSAD (R111): c is the whole word of src(2). -/
def execVsad (o : NOp) (s : State) : Out :=
  .next (s.vop (.vsad o) o false (fun l => (sadLane o.ty (s.src o.ty o.s0 l) (s.src o.ty o.s1 l) (s.src o.ty o.s2 l), 0)))

/-- VLEA (R111): base plus index shifted left by the scale literal. -/
def execVlea (o : NOp) (s : State) : Out :=
  .next (s.vop (.vlea o) o o.ty.is64 (fun l => ((s.src o.ty o.s0 l + s.src o.ty o.s1 l * 2 ^ o.s2.ctlVal) % 2 ^ o.ty.bits, 0)))

/-- VCMP (R117). -/
def execVcmp (o : NOp) (s : State) : Out :=
  .next (s.mop (.vcmp o) o (fun l => (condHolds o.s2.ctlVal o.ty.bits (readInt o.ty.signed o.ty.bits (s.src o.ty o.s0 l))
    (readInt o.ty.signed o.ty.bits (s.src o.ty o.s1 l)), 0)))

/-- VSEL (R117): bit l of the scalar of S2 chooses a or b whole. -/
def execVsel (o : NOp) (s : State) : Out :=
  .next (s.vop (.vsel o) o o.ty.is64 (fun l => (if (s.srcW o.s2 l).getLsbD l then s.src o.ty o.s0 l else s.src o.ty o.s1 l, 0)))

/-- VMOVI (R110, R111). -/
def execVmovi (o : IOp) (s : State) : Out :=
  .next (s.checked (.vmovi o) s.me.step.issue (fun s => s.putV o.e o.v o.d.toNat s.me.step.issue false (fun _ => (o.imm.toNat, 0))))

/-- VADDI (R110, R111). -/
def execVaddi (o : IOp) (s : State) : Out :=
  .next (s.checked (.vaddi o) s.me.step.issue (fun s =>
    s.putV o.e o.v o.d.toNat s.me.step.issue false (fun l => ((s.src .n32 o.s0 l + o.imm.toNat) % 2 ^ 32, 0))))

/-- SADD (R118). -/
def execSadd (o : NOp) (s : State) : Out := .next (s.sint (.sadd o) o fAdd)

/-- SSUB (R118). -/
def execSsub (o : NOp) (s : State) : Out := .next (s.sint (.ssub o) o fSub)

/-- SMUL (R118). -/
def execSmul (o : NOp) (s : State) : Out := .next (s.sint (.smul o) o fMul)

/-- SMULH (R118). -/
def execSmulh (o : NOp) (s : State) : Out := .next (s.sint (.smulh o) o fMulh)

/-- SMIN (R118). -/
def execSmin (o : NOp) (s : State) : Out := .next (s.sint (.smin o) o fMin)

/-- SMAX (R118). -/
def execSmax (o : NOp) (s : State) : Out := .next (s.sint (.smax o) o fMax)

/-- SAND (R118). -/
def execSand (o : NOp) (s : State) : Out := .next (s.sint (.sand o) o fAnd)

/-- SOR (R118). -/
def execSor (o : NOp) (s : State) : Out := .next (s.sint (.sor o) o fOr)

/-- SXOR (R118). -/
def execSxor (o : NOp) (s : State) : Out := .next (s.sint (.sxor o) o fXor)

/-- SANDN (R118). -/
def execSandn (o : NOp) (s : State) : Out := .next (s.sint (.sandn o) o fAndn)

/-- SSHL (R118). -/
def execSshl (o : NOp) (s : State) : Out := .next (s.sint (.sshl o) o fShl)

/-- SSHR (R118). -/
def execSshr (o : NOp) (s : State) : Out := .next (s.sint (.sshr o) o fShr)

/-- SSAR (R118). -/
def execSsar (o : NOp) (s : State) : Out := .next (s.sint (.ssar o) o fSar)

/-- SMOV (R118). -/
def execSmov (o : NOp) (s : State) : Out := .next (s.sint (.smov o) o fMov)

/-- SPOPC (R118). -/
def execSpopc (o : NOp) (s : State) : Out := .next (s.sint (.spopc o) o fPopc)

/-- SCLZ (R118). -/
def execSclz (o : NOp) (s : State) : Out := .next (s.sint (.sclz o) o fClz)

/-- SCTZ (R118). -/
def execSctz (o : NOp) (s : State) : Out := .next (s.sint (.sctz o) o fCtz)

/-- SCMP (R118): all ones or zero, in both words of a pair. -/
def execScmp (o : NOp) (s : State) : Out :=
  .next (s.sop (.scmp o) o o.ty.is64 (if condHolds o.s2.ctlVal o.ty.bits (readInt o.ty.signed o.ty.bits (s.src o.ty o.s0 0))
    (readInt o.ty.signed o.ty.bits (s.src o.ty o.s1 0)) then 2 ^ 64 - 1 else 0))

/-- SSEL (R118). -/
def execSsel (o : NOp) (s : State) : Out :=
  .next (s.sop (.ssel o) o o.ty.is64 (if s.src .n32 o.s2 0 != 0 then s.src o.ty o.s0 0 else s.src o.ty o.s1 0))

/-- SMOVI (R118). -/
def execSmovi (o : IOp) (s : State) : Out :=
  .next (s.checked (.smovi o) s.me.step.issue (fun s => s.putS o.e o.v o.d.toNat s.me.step.issue false o.imm.toNat))

/-- SADDI (R118). -/
def execSaddi (o : IOp) (s : State) : Out :=
  .next (s.checked (.saddi o) s.me.step.issue (fun s =>
    s.putS o.e o.v o.d.toNat s.me.step.issue false ((s.src .n32 o.s0 0 + o.imm.toNat) % 2 ^ 32)))

/-- SLANE (R119): lane L of a vector, 0 for an absent lane. The lane read is L alone (R350). With an empty exec() no register is
written and b0 takes the lane's word, as R107 and R25 have it for every scalar result. (DESIGN CHOICE, log 72: unsafe.) -/
def execSlane (o : NOp) (s : State) : Out :=
  let k := s.src .n32 o.s1 0 % 32
  .next (s.checked (.slane o) (s.laneRead o) (fun s =>
    s.putS o.e o.v o.d.toNat (s.me.execSet o.g) o.ty.is64 (if s.me.present.has k then s.src o.ty o.s0 k else 0)))

/-- VPUT (R119): lane L alone, in or out of exec(), unless it has exited (R260); b0 takes the destination's word after the write, in the other lanes
the one before the step. (DEDUCED, log 92: unsafe.) -/
def execVput (o : NOp) (s : State) : Out :=
  let m := s.me.execSet o.g
  .next (s.checked (.vput o) m (fun s =>
    let k := s.src .n32 o.s1 0 % 32
    let lanes := if m != 0#32 && s.me.unexited.has k then Mask.single k else 0#32
    let x := s.src o.ty o.s0 0
    let d := o.d.toNat
    let buf := if o.v then [] else Buf.vec d lanes (lowWords (fun _ => x)) :: (if o.ty.is64 then [Buf.vec (d + 1) lanes (highWords (fun _ => x))] else [])
    s.finish o.e (some (Lanes.ofFn (fun l => if lanes.has l then BitVec.ofNat 32 x else s.me.vword d l))) buf []))

end Sys2Proof.Machine
end

