-- ==== Sys2Proof/Machine/Float.lean ====
section
/-! DEFINITION. The floating vector instructions (R120 to R130). -/
set_option autoImplicit false

namespace Sys2Proof.Machine

/-- A floating element function: the rounding mode and the exact operands; the exact result and its flags. -/
abbrev FltFn := Rnd → XReal → XReal → XReal → XReal × Nat

/-- One lane of a floating instruction that reads `n` sources: each element is rounded once (R120); a signalling NaN among the
operands raises INVALID (R90). -/
def fltLane (t : Ty) (n : Nat) (m : Rnd) (f : FltFn) (a b c : Nat) : Flagged :=
  (List.range t.elems).foldl (fun acc k =>
    let fm := Fmt.ofTy t
    let el (x : Nat) : XReal := decodeVal fm (elemNat t.bits k x)
    let sig := sigFlag (el a) ||| (if 2 ≤ n then sigFlag (el b) else 0) ||| (if 3 ≤ n then sigFlag (el c) else 0)
    let x := f m (el a) (el b) (el c)
    let r := round fm m false x.1
    (acc.1 + r.1 * 2 ^ (t.bits * k), acc.2 ||| sig ||| x.2 ||| r.2)) (0, 0)

/-- One lane whose elements are edited as codes. -/
def codeLane (t : Ty) (f : Fmt → Nat → Nat → Flagged) (a b : Nat) : Flagged :=
  (List.range t.elems).foldl (fun acc k =>
    let r := f (Fmt.ofTy t) (elemNat t.bits k a) (elemNat t.bits k b)
    (acc.1 + r.1 * 2 ^ (t.bits * k), acc.2 ||| r.2)) (0, 0)

def gAdd : FltFn := fun m a b _ => xadd m a b
def gSub : FltFn := fun m a b _ => xadd m a b.neg
def gMul : FltFn := fun _ a b _ => xmul a b
/-- The exact product and sum, rounded once (R125). -/
def gFma : FltFn := fun m a b c => xdot m [(a, b)] [c]
def gDiv : FltFn := fun _ a b _ => xdiv a b
/-- The square root; of -0 it is -0 (R125). -/
def gSqrt : FltFn := fun _ a _ _ =>
  match a with
  | .nan _ => (.nan false, 0)
  | .inf s => if s then (.nan false, fINVALID) else (.inf false, 0)
  | .fin s n d => if n = 0 then (.fin s 0 1, 0) else if s then (.nan false, fINVALID)
      else (.fin false (sqrtVal n d).1 (sqrtVal n d).2, 0)

/-- VFRND: the integral value, never INEXACT (R126). -/
def gRnd : FltFn := fun m a _ _ =>
  match a with
  | .fin s n d => (.fin s (roundMag m s n d) 1, 0)
  | x => (x, 0)

/-- a is below b, with -0 below +0 (R127). -/
def minLess (a b : XReal) : Bool := a.lt b || (a.isZero && b.isZero && a.signBit && !b.signBit)

/-- The minimum and maximum of two codes (R127): `mx` a maximum, `num` the form that returns the number beside a NaN. -/
def fMinMax (mx num : Bool) (f : Fmt) (a b : Nat) : Flagged :=
  let x := decodeVal f a
  let y := decodeVal f b
  let fl := sigFlag x ||| sigFlag y
  if x.isNan && y.isNan then (f.defaultNan, fl)
  else if x.isNan then (if num then b else f.defaultNan, fl)
  else if y.isNan then (if num then a else f.defaultNan, fl)
  else if mx then (if minLess x y then b else a, fl)
  else (if minLess y x then b else a, fl)

/-- The conditions of VFCMP on one pair of elements (R128). -/
def fcmpHolds (code : Nat) (x y : XReal) : Bool × Nat :=
  let un := x.isNan || y.isNan
  let sig := sigFlag x ||| sigFlag y
  let any := if un then fINVALID else 0
  match code with
  | 0 => (x.eqv y, sig)
  | 1 => (!x.eqv y, sig)
  | 2 => (x.lt y, any)
  | 3 => (!un && !y.lt x, any)
  | 4 => (y.lt x, any)
  | 5 => (!un && !x.lt y, any)
  | 6 => (un, sig)
  | _ => (!un, sig)

/-- The class vector of one code (R129). -/
def fclass (f : Fmt) (c : Nat) : Nat :=
  match decodeVal f c with
  | .nan s => if s then 2 ^ 8 else 2 ^ 9
  | .inf s => if s then 1 else 2 ^ 7
  | .fin s n _ =>
    let sub := c / 2 ^ f.tbits % 2 ^ f.ebits = 0
    if n = 0 then (if s then 2 ^ 3 else 2 ^ 4)
    else if sub then (if s then 2 ^ 2 else 2 ^ 5)
    else (if s then 2 else 2 ^ 6)

/-- a times 2^n in one element (R126). Exponents beyond 4000 in magnitude are cut, which changes no rounded result. (DEDUCED, log 16: unsafe.) -/
def ldexpVal (a : XReal) (n : Int) : XReal := a.scale (max (-4000) (min 4000 n))

/-- A floating vector instruction that reads `n` sources. -/
def State.vflt (s : State) (i : Instr) (o : NOp) (n : Nat) (f : FltFn) : State :=
  s.vop i o o.ty.is64 (fun l => fltLane o.ty n o.rnd f (s.src o.ty o.s0 l) (s.src o.ty o.s1 l) (s.src o.ty o.s2 l))

/-- A floating vector instruction on codes. -/
def State.vcode (s : State) (i : Instr) (o : NOp) (f : Fmt → Nat → Nat → Flagged) : State :=
  s.vop i o o.ty.is64 (fun l => codeLane o.ty f (s.src o.ty o.s0 l) (s.src o.ty o.s1 l))

/-- VFADD (R125). -/
def execVfadd (o : NOp) (s : State) : Out := .next (s.vflt (.vfadd o) o 2 gAdd)

/-- VFSUB (R125). -/
def execVfsub (o : NOp) (s : State) : Out := .next (s.vflt (.vfsub o) o 2 gSub)

/-- VFMUL (R125). -/
def execVfmul (o : NOp) (s : State) : Out := .next (s.vflt (.vfmul o) o 2 gMul)

/-- VFMA (R125). -/
def execVfma (o : NOp) (s : State) : Out := .next (s.vflt (.vfma o) o 3 gFma)

/-- VFDIV (R125). -/
def execVfdiv (o : NOp) (s : State) : Out := .next (s.vflt (.vfdiv o) o 2 gDiv)

/-- VFSQRT (R125). -/
def execVfsqrt (o : NOp) (s : State) : Out := .next (s.vflt (.vfsqrt o) o 1 gSqrt)

/-- VFRND (R126). -/
def execVfrnd (o : NOp) (s : State) : Out := .next (s.vflt (.vfrnd o) o 1 gRnd)

/-- VFMIN (R127). -/
def execVfmin (o : NOp) (s : State) : Out := .next (s.vcode (.vfmin o) o (fMinMax false false))

/-- VFMAX (R127). -/
def execVfmax (o : NOp) (s : State) : Out := .next (s.vcode (.vfmax o) o (fMinMax true false))

/-- VFMINN (R127). -/
def execVfminn (o : NOp) (s : State) : Out := .next (s.vcode (.vfminn o) o (fMinMax false true))

/-- VFMAXN (R127). -/
def execVfmaxn (o : NOp) (s : State) : Out := .next (s.vcode (.vfmaxn o) o (fMinMax true true))

/-- VFABS (R126). -/
def execVfabs (o : NOp) (s : State) : Out := .next (s.vcode (.vfabs o) o (fun f a _ => (a % f.signWeight, 0)))

/-- VFNEG (R126). -/
def execVfneg (o : NOp) (s : State) : Out := .next (s.vcode (.vfneg o) o (fun f a _ => ((a + f.signWeight) % (2 * f.signWeight), 0)))

/-- VFRCP (R130). -/
def execVfrcp (o : NOp) (s : State) : Out := .next (s.vcode (.vfrcp o) o (fun f a _ => Approx.rcp.result f a))

/-- VFRSQ (R130). -/
def execVfrsq (o : NOp) (s : State) : Out := .next (s.vcode (.vfrsq o) o (fun f a _ => Approx.rsq.result f a))

/-- VFEXP2 (R130). -/
def execVfexp2 (o : NOp) (s : State) : Out := .next (s.vcode (.vfexp2 o) o (fun f a _ => Approx.exp2.result f a))

/-- VFLOG2 (R130). -/
def execVflog2 (o : NOp) (s : State) : Out := .next (s.vcode (.vflog2 o) o (fun f a _ => Approx.log2.result f a))

/-- VFSIN (R130). -/
def execVfsin (o : NOp) (s : State) : Out := .next (s.vcode (.vfsin o) o (fun f a _ => Approx.sin.result f a))

/-- VFCOS (R130). -/
def execVfcos (o : NOp) (s : State) : Out := .next (s.vcode (.vfcos o) o (fun f a _ => Approx.cos.result f a))

/-- VFLDEXP (R126): n is a signed word of src(1), the same for both halves. -/
def execVfldexp (o : NOp) (s : State) : Out :=
  .next (s.vop (.vfldexp o) o o.ty.is64 (fun l =>
    fltLane o.ty 1 o.rnd (fun _ a _ _ => (ldexpVal a (s.srcW o.s1 l).toInt, 0)) (s.src o.ty o.s0 l) 0 0))

/-- VFCMP (R128): under packed halves the relation must hold for both elements. -/
def execVfcmp (o : NOp) (s : State) : Out :=
  .next (s.mop (.vfcmp o) o (fun l =>
    (List.range o.ty.elems).foldl (fun acc k =>
      let el (x : Nat) : XReal := decodeVal (Fmt.ofTy o.ty) (elemNat o.ty.bits k x)
      let r := fcmpHolds o.s2.ctlVal (el (s.src o.ty o.s0 l)) (el (s.src o.ty o.s1 l))
      (acc.1 && r.1, acc.2 ||| r.2)) (true, 0)))

/-- VFCLASS (R129): one 32-bit word, also under f64. -/
def execVfclass (o : NOp) (s : State) : Out :=
  .next (s.vop (.vfclass o) o false (fun l =>
    ((List.range o.ty.elems).foldl (fun acc k => acc + fclass (Fmt.ofTy o.ty) (elemNat o.ty.bits k (s.src o.ty o.s0 l)) * 2 ^ (16 * k)) 0, 0)))

end Sys2Proof.Machine
end

