-- ==== Sys2Proof/Machine/Access.lean ====
section
/-! DEFINITION. One access to memory (R167 to R190, R233, R354, R363): addresses, the ordered checks, the bytes of a lane. -/
set_option autoImplicit false

namespace Sys2Proof.Machine

/-! ### Addresses (R167, R168, R170) -/

/-- The code of a space (R167). -/
def spaceCode : Space → Nat
  | .spill => 0 | .gang => 1 | .scr => 2 | .dom => 3 | .host => 4

/-- The effective address of lane `l` (R168); on the spill stack it is e of R170. -/
def State.ea (s : State) (sp : Space) (base : Src) (off : Int) (l : Nat) : Nat :=
  if sp == .dom || sp == .host then keep 64 ((s.src .n64 base l : Int) + off)
  else if sp == .spill then keep 32 ((s.src .n32 base l : Int) + off) + s.me.sp.spillp.toNat
  else keep 32 ((s.src .n32 base l : Int) + off)

/-- A piece of one lane's access that one translation covers: its address, its length, where it lies, its TSO attribute. -/
structure Piece where
  va : Nat
  len : Nat
  loc : Nat := 0
  tso : Bool := false
  deriving DecidableEq, Repr, Inhabited

/-- The pieces of `n` bytes at `ea`: words of an interleaved spill stack (R170), else what lies in each 4 KiB. -/
def piecesOf (sp : Space) (ea n : Nat) : List Piece :=
  if sp == .spill then (List.range ((n + 3) / 4)).map (fun i => { va := ea + 4 * i, len := min 4 (n - 4 * i) })
  else
    let first := min n (4096 - ea % 4096)
    if first = n then [{ va := ea, len := n }] else [{ va := ea, len := first }, { va := ea + first, len := n - first }]

/-- The scratchpad byte of a spill address (R170). -/
def Warp.spillVa (w : Warp) (l e : Nat) : Nat := w.sp.spillbase.toNat + 128 * (e / 4) + 4 * l + e % 4

/-- The issuing launch's ensemble member of a rank. -/
def State.rankOfLaunch (s : State) (ln rank : Nat) : EnsRank :=
  match (s.launch ln).ens with
  | none => {}
  | some e => (s.ens.get e).members.get rank

/-! ### The checks of R181 -/

/-- Check 2: does a piece lie outside its space? (DEDUCED, log 22: unsafe.) -/
def State.outside (s : State) (sp : Space) (w : Warp) (p : Piece) : Bool :=
  match sp with
  | .spill => w.sp.spillsize.toNat / 32 < p.va + p.len
  | .gang => (s.gangOf w).gangSize ≤ p.va
  | .scr => false
  | .dom => 2 ^ 38 ≤ p.va || !(s.rankOfLaunch (s.gangOf w).launch (p.va / 2 ^ 32 % 64)).live
  | .host => 2 ^ 48 ≤ p.va

/-- `translate()` of one piece (R182). (DEDUCED, log 22: unsafe; DESIGN CHOICE, log 66: unsafe.) -/
def State.place (s : State) (sp : Space) (w : Warp) (acc : Access) (l : Nat) (p : Piece) : Trans :=
  let g := s.gangOf w
  match sp with
  | .spill => s.translateAt (quadCluster w.quad) g.part g.ctx .spill acc w.isSup (w.spillVa l p.va)
  | .gang => .ok (gangLoc w.gang p.va) false
  | .scr => s.translateAt (quadCluster w.quad) g.part g.ctx .scr acc w.isSup p.va
  | .host => s.translateAt (quadCluster w.quad) g.part g.ctx .host acc w.isSup p.va
  | .dom =>
    let ln := s.launch g.launch
    let rank := p.va / 2 ^ 32 % 64
    let va := p.va % 2 ^ 32
    if rank = ln.rank then s.translateAt (quadCluster w.quad) g.part g.ctx .scr acc w.isSup va
    else
      let pg := (s.rankOfLaunch g.launch rank).pages.get (va / 65536)
      if !pg.live then .cause cPAGE_ABSENT
      else
        let ok := match acc with
          | .read | .presQuery => pg.r
          | .write | .presSet => pg.w
          | .atomic => pg.r && pg.w
          | _ => false
        if ok then .ok (pg.loc + va % 65536) pg.tso else .cause cPAGE_RIGHTS

/-- One lane of a checked access. -/
structure LaneRef where
  lane : Nat
  ea : Nat
  pieces : List Piece
  deriving DecidableEq, Repr, Inhabited

/-- What the checks end in. -/
inductive Chk
  | fault (cause : Nat) (taddr tinfo : Word) (tmask : Mask)
  | watch (index : Nat) (taddr : Word) (tmask : Mask) (wide : Bool)
  | park (key : Nat)
  | reject (kind : Nat)
  | ok (refs : List LaneRef)
  deriving DecidableEq, Repr

/-- The fault of a check that some lanes fail (R181): the cause of the lowest one, and the lanes that fail with it. `f` gives a
lane's cause and its lowest failing address. -/
def failOf (m : Mask) (sp macc idx : Nat) (f : Nat → Option (Nat × Nat)) : Option Chk :=
  match m.lanes.filterMap (fun l => (f l).map (fun x => (l, x))) with
  | [] => none
  | (l, c, a) :: _ =>
    some (.fault c (BitVec.ofNat 32 a) (memInfo sp macc l idx a) (Mask.ofFn (fun k => m.has k && ((f k).map (·.1)) == some c)))

/-- MACC of an access (R183). -/
def Access.macc : Access → Nat
  | .read | .fetch | .supRead => 0
  | .write | .supWrite => 1
  | .atomic => 2
  | .presQuery | .presSet => 3

/-- The kind bit of a watchpoint that an access matches (R362). -/
def Access.watchBit : Access → Nat
  | .read | .fetch | .supRead => 24
  | .write | .supWrite => 25
  | .atomic => 26
  | .presQuery | .presSet => 27

/-- Does an enabled watchpoint cover a byte of the range (R362, R363)? -/
def Watch.touches (x : Watch) (sp : Nat) (bit va n : Nat) : Bool :=
  let c := x.ctl.toNat
  let len := 2 ^ (c / 65536 % 32)
  let rank := if sp = 3 then va / 2 ^ 32 % 64 else c / 1024 % 64
  let a := if sp = 3 then va % 2 ^ 32 else va
  x.ctl.getLsbD 31 && c / 2 ^ 28 % 8 == sp && x.ctl.getLsbD bit && c / 1024 % 64 == rank
    && a < x.addr.toNat + len && x.addr.toNat < a + n

/-- The lowest watchpoint that the lanes of an access hit (R363). -/
def State.watchHit (s : State) (w : Warp) (sp bit : Nat) (refs : List LaneRef) : Option Chk :=
  let ck := s.ckOf w
  if !s.attached ck then none
  else
    let ws := (s.ctx ck).dbg.watches
    firstSome (fun k =>
      let x := ws.get k
      let hit := refs.filter (fun r => r.pieces.any (fun p => x.touches sp bit p.va p.len))
      match hit with
      | [] => none
      | r :: _ => some (.watch k (BitVec.ofNat 32 r.ea) (Mask.ofFn (fun l => hit.any (fun r => r.lane == l))) (x.ctl.getLsbD 23))) (List.range 8)

/-! ### Lines and units of a piece -/

/-- Is a space cached in the L1 (R167)? TSO pages are read at their port (R239). -/
def cachedSpace : Space → Bool
  | .spill | .scr | .dom => true
  | _ => false

/-- The lines of a piece. -/
def Piece.keys (p : Piece) : List Nat :=
  let a := p.loc / 128
  let b := (p.loc + p.len - 1) / 128
  (List.range (b - a + 1)).map (a + ·)

/-- The 16-byte units of a piece. -/
def Piece.units (p : Piece) : List Nat :=
  let a := p.loc / 16
  let b := (p.loc + p.len - 1) / 16
  (List.range (b - a + 1)).map (a + ·)

/-- Does the executing access read a piece through the L1? Not past an acquiring fence of its own step (R213, R230). -/
def State.throughL1 (s : State) (sp : Space) (p : Piece) : Bool := cachedSpace sp && !p.tso && !s.me.pastAcq

/-- Does the presence check of a load read the state recorded at a fill (R233)? Not that of a line whose change has woken its warp, or is
its warp's own (R185, R222). (DEDUCED, log 20: unsafe.) -/
def State.viaL1 (s : State) (c : Nat) (sp : Space) (acc : Access) (p : Piece) (key : Nat) : Bool :=
  s.throughL1 sp p && acc == .read && (s.l1Line c key).isSome && !s.me.woken.any (fun x => x.1 == key)
  && !s.heldStores.any (fun e => e.2.live && e.2.warp == s.actor && (e.2.lineAt key).isSome)

/-- The address of the first byte of a piece in line `key`, or in unit `key`, of `n` bytes. -/
def Piece.addrIn (p : Piece) (n key : Nat) : Nat := p.va + (n * key - p.loc)

/-- Check 4 in one lane (R181, R354). -/
def State.lineFault (s : State) (c : Nat) (sp : Space) (acc : Access) (r : LaneRef) : Option (Nat × Nat) :=
  match sp with
  | .gang => firstSome (fun p => firstSome (fun k => if s.poisonUnit.get k then some (cPOISON, p.addrIn 16 k) else none) p.units) r.pieces
  | .host => none
  | _ => firstSome (fun p => firstSome (fun k =>
      if s.viaL1 c sp acc p k then none
      else match s.lineFor s.actor c k with
        | .failed => some (cLINE_FAILED, p.addrIn 128 k)
        | .present => if s.poisonLine.get k && !s.wipedFor s.actor k then some (cPOISON, p.addrIn 128 k) else none
        | .absent => none) p.keys) r.pieces

/-- The first absent line of a lane (R185). -/
def State.absentLine (s : State) (c : Nat) (sp : Space) (acc : Access) (r : LaneRef) : Option Nat :=
  match sp with
  | .gang | .host | .spill => none
  | _ => firstSome (fun p => firstSome (fun k => if s.viaL1 c sp acc p k then none else if s.lineFor s.actor c k == .absent then some k else none) p.keys) r.pieces

/-- Miss-status entries that an access takes: one for each distinct line it misses, or host line it touches, never more than 64
(R189). (DESIGN CHOICE, log 85: unsafe.) -/
def State.missLines (s : State) (c : Nat) (sp : Space) (refs : List LaneRef) : Nat :=
  if sp == .gang then 0
  else
    let ks := (refs.flatMap (fun r => r.pieces.flatMap Piece.keys)).eraseDups
    min 64 (ks.filter (fun k => !cachedSpace sp || s.me.pastAcq || (s.l1Line c k).isNone)).length

/-- Miss-status entries in use in a cluster. -/
def State.missUsed (s : State) (c : Nat) : Nat :=
  s.warps.foldl (fun a e => if quadCluster e.2.quad == c then a + e.2.replies.foldl (fun a r => a + r.2.entries) 0 else a) 0

/-- Store-buffer entries in use in a cluster (R189, R208). (DESIGN CHOICE, log 24: safe.) -/
def State.storesUsed (s : State) (c : Nat) : Nat :=
  (s.portOps.filter (fun e => e.2.live && e.2.cluster == c)).length + (s.heldStores.filter (fun e => e.2.live && e.2.cluster == c)).length

/-- Does an older rejected warp wait for, or retry with, entries of the kind? What frees is reserved for it (R32, R190): the miss-status
entries and the store buffer of a cluster, the engines' queues of a section. -/
def State.olderRejected (s : State) (kind : Nat) : Bool :=
  let w := s.me
  s.warps.any (fun e =>
    let v := e.2
    v.live && e.1 != s.actor && v.rejKind == kind && s.running v
    && (if kind == kENGINE then quadSection v.quad == quadSection w.quad else quadCluster v.quad == quadCluster w.quad)
    && (match v.wait with
      | .reject _ | .ready => true
      | _ => false)
    && (match v.age, w.age with
      | some a, some b => a < b || (a == b && e.1 < s.actor)
      | some _, none => true
      | none, _ => false))

/-- `check()` of R181 for `n` bytes in each lane of `m`: `np` a no-park load, `lines` whether checks 4 and 5 apply. (DEDUCED, log 22: unsafe.) -/
def State.check (s : State) (sp : Space) (acc : Access) (n align : Nat) (m : Mask) (np lines : Bool) (ea : Nat → Nat) : Chk :=
  let w := s.me
  let c := quadCluster w.quad
  let code := spaceCode sp
  let fail (f : Nat → Option (Nat × Nat)) : Option Chk := failOf m code acc.macc w.step.idx f
  match fail (fun l => if ea l % align != 0 then some (cMISALIGNED, ea l) else none) with
  | some x => x
  | none =>
  match fail (fun l => ((piecesOf sp (ea l) n).find? (s.outside sp w)).map (fun p => (cSPACE_LIMIT, if sp == .spill then ea l else p.va))) with
  | some x => x
  | none =>
  match (if sp == .dom then fail (fun l => if s.unreach.get (ea l / 2 ^ 32 % 64) then some (cREMOTE_UNREACHABLE, ea l) else none) else none) with
  | some x => x
  | none =>
  match fail (fun l => firstSome (fun p => match s.place sp w acc l p with
      | .cause k => some (k, if sp == .spill then w.spillVa l p.va else p.va)
      | .ok _ _ => none) (piecesOf sp (ea l) n)) with
  | some x => x
  | none =>
    let refs : List LaneRef := m.lanes.map (fun l =>
      { lane := l, ea := ea l, pieces := (piecesOf sp (ea l) n).map (fun p => match s.place sp w acc l p with
        | .ok loc tso => { p with loc := loc, tso := tso }
        | .cause _ => p) })
    match s.watchHit w code acc.watchBit refs with
    | some x => x
    | none =>
    let ref (l : Nat) : LaneRef := (refs.find? (fun r => r.lane == l)).getD default
    match (if lines then fail (fun l => s.lineFault c sp acc (ref l)) else none) with
    | some x => x
    | none =>
    match (if lines && !np then firstSome (s.absentLine c sp acc) refs else none) with
    | some k => .park k
    | none =>
      if acc == .read && 0 < s.missLines c sp refs && (256 < s.missUsed c + s.missLines c sp refs || s.olderRejected kMISS) then .reject kMISS
      else if (acc == .write || acc == .atomic || acc == .presSet) && (s.caps.storeBuf ≤ s.storesUsed c || s.olderRejected kSTORE) then .reject kSTORE
      else .ok refs

/-- A watchpoint hit ends the step: its cause is delivered, in the debug class with event 1 (R343, R363, R364). -/
def State.watchStop (s : State) (k : Nat) (taddr : Word) (m : Mask) (wide : Bool) : State :=
  s.orArith (fun s =>
    let first := s.me.step.first
    (s.updMe Warp.abandon).deliverAs s.actor cWATCHPOINT first taddr (BitVec.ofNat 32 k) m (1 + 512 * k) wide)

/-- Go on with a checked access, or end the operation as its checks say. -/
def State.onCheck (s : State) (x : Chk) (k : List LaneRef → State) : State :=
  match x with
  | .fault c a i m => s.raise c a i m
  | .watch n a m wide => s.watchStop n a m wide
  | .park key => (s.drainHeld (fun h => h.warp == s.actor && (h.lineAt key).isSome)).park (.line key)
  | .reject kind => s.reject kind
  | .ok refs => k refs

/-- The gang of a replay launch notes what its step accesses (R375). -/
def State.noteAccs (s : State) (sp : Space) (acc : Access) (refs : List LaneRef) : State :=
  let g := s.me.gang
  if (s.launch (s.gang g).launch).replay then
    s.updGang g (fun x => { x with accs := x.accs ++ refs.flatMap (fun r => r.pieces.map (fun p => ({ lane := r.lane, space := spaceCode sp, bit := acc.watchBit, ea := r.ea, va := p.va, len := p.len } : StepAcc))) })
  else s

/-- The translation buffers keep the leaves that a checked access used (R405). -/
def State.tlbKeep (s : State) (sp : Space) (refs : List LaneRef) : State :=
  let w := s.me
  let g := s.gangOf w
  let use (win : Window) (va : LaneRef → Piece → Nat) : State :=
    refs.foldl (fun s r => r.pieces.foldl (fun s p => s.tlbFill (quadCluster w.quad) g.part g.ctx win (va r p)) s) s
  match sp with
  | .gang => s
  | .spill => use .spill (fun r p => w.spillVa r.lane p.va)
  | .scr => use .scr (fun _ p => p.va)
  | .host => use .host (fun _ p => p.va)
  | .dom => if refs.any (fun r => r.ea / 2 ^ 32 % 64 == (s.launch g.launch).rank) then use .scr (fun _ p => p.va % 2 ^ 32) else s

/-- A checked access of a warp: the buffers keep its leaves, and a replay gang notes it (R375, R405). -/
def State.tlbUse (s : State) (sp : Space) (acc : Access) (refs : List LaneRef) : State := (s.noteAccs sp acc refs).tlbKeep sp refs

/-! ### Bytes -/

/-- The locations of one lane's access. -/
def LaneRef.locs (r : LaneRef) : List Nat := r.pieces.flatMap (fun p => (List.range p.len).map (p.loc + ·))

/-- The bytes of one lane's access, as its warp reads them. -/
def State.laneBytes (s : State) (u c : Nat) (sp : Space) (r : LaneRef) : List Byte :=
  r.pieces.flatMap (fun p => (List.range p.len).map (fun i => s.byteFor u c (s.throughL1 sp p) (p.loc + i)))

/-- Fill the lines that the lanes read, where the space is cached. -/
def State.fillFor (s : State) (c : Nat) (sp : Space) (refs : List LaneRef) : State :=
  if cachedSpace sp && !s.me.pastAcq then
    refs.foldl (fun s r => r.pieces.foldl (fun s p => if p.tso then s else p.keys.foldl (fun s k => s.fillLine c k) s) s) s
  else s

/-- Cells cut into single accesses: the bytes within one 16-byte unit (R180). -/
def unitsOf (cells : List (Nat × Byte)) : List (List (Nat × Byte)) :=
  ((cells.map (·.1 / 16)).eraseDups).map (fun k => cells.filter (fun c => c.1 / 16 == k))

end Sys2Proof.Machine
end

