-- ==== Sys2Proof/Machine/Engine.lean ====
section
/-! DEFINITION. What the engines of the copies, collectives, matrix units and SENDMEM share: watch hits of an engine (R363, R366),
replies of an engine (R31, R199), parked warps that wake (R185, R203). -/
set_option autoImplicit false

namespace Sys2Proof.Machine

/-! ### Engine watch hits (R363, R365, R366) -/

/-- One access of an engine: the code of its space, the kind bit of R362, its address and length. -/
structure EngAcc where
  sp : Nat
  bit : Nat
  va : Nat
  len : Nat
  deriving DecidableEq, Repr, Inhabited

/-- The watchpoints that the accesses hit, in number order: index and the first watched byte touched. -/
def State.engineHits (s : State) (ck : Nat) (xs : List EngAcc) : List (Nat × Nat) :=
  if !s.attached ck then []
  else
    let ws := (s.ctx ck).dbg.watches
    (List.range 8).filterMap (fun k =>
      let x := ws.get k
      (xs.find? (fun a => x.touches a.sp a.bit a.va a.len)).map (fun a => (k, max a.va x.addr.toNat)))

/-- Has the gang exited? -/
def State.gangGone (s : State) (g : Nat) : Bool := (s.gang g).place == .retired || (s.gang g).place == .absent

/-- At a hit a resident gang stops, a saved one is marked halted, and nothing stops for a gang that has exited (R366). -/
def State.hitStop (s : State) (ck g : Nat) (hs : List (Nat × Nat)) : State :=
  hs.foldl (fun s h => if s.gangGone g then s else s.broadcast g (((s.ctx ck).dbg.watches.get h.1).ctl.getLsbD 23)) s

/-- The record of one engine hit, while the debug right is held (R365, R366). -/
def State.engineEvent (s : State) (ck g batch : Nat) (eseq : Word) (h : Nat × Nat) : State :=
  if !s.attached ck then s
  else s.dbgEvent (ck / 64) (ck % 64) (2 + (if s.gangGone g then 256 else 0) + 512 * h.1 + 4096 * batch) (BitVec.ofNat 32 h.2) g eseq

/-- The records of the hits of one engine operation, made at its completion: they name its sequence number. -/
def State.hitEvents (s : State) (ck g batch : Nat) (eseq : Word) (hs : List (Nat × Nat)) : State :=
  hs.foldl (fun s h => s.engineEvent ck g batch eseq h) s

/-- Hits not yet in a list that keeps one of each watchpoint (R366). -/
def newHits (old new : List (Nat × Nat)) : List (Nat × Nat) := new.filter (fun h => !old.any (fun o => o.1 == h.1))

/-- Accesses of an engine that completes in the same act: the stops and the records. -/
def State.hitNow (s : State) (ck g : Nat) (xs : List EngAcc) : State :=
  let hs := s.engineHits ck xs
  (s.hitStop ck g hs).hitEvents ck g 0 0#32 hs

/-! ### Replies of engines -/

/-- Expect an engine's result for `n` scalar registers, none under V = 1: its number. -/
def State.holdScalars (s : State) (d n : Nat) : Nat × State :=
  let (id, s) := s.fresh
  (id, s.updMe (fun w => { w with replies := w.replies.set id { vec := false, base := d, n := n, lanes := Mask.full, at_ := s.clock, engine := true } }))

/-- An engine's result arrives: latches take its first word, LOAD_REPLY writes the registers, a replay gang logs it. -/
def State.scalarsReach (s : State) (u id : Nat) (xs : List Word) : State :=
  let s := s.reach u id (fun r => { r with vals := xs.map Lanes.splat })
  if (s.warp u).live then s.logRead u Mask.full (xs.flatMap (fun x => natBytes 4 x.toNat)) else s

/-- Write a scalar reply and end its hold. A warp that has retired takes nothing. -/
def State.writeScalars (s : State) (u id : Nat) (xs : List Word) : State :=
  s.updWarp u (fun w =>
    if !w.live || !(w.replies.any (fun e => e.1 == id)) then w
    else
      let r := w.replies.get id
      let w := (xs.zipIdx.filter (fun x => x.2 < r.n)).foldl (fun w x => w.setS (r.base + x.2) x.1) w
      { w with replies := w.replies.erase id })

/-! ### Wakes (R78, R185, R203) -/

/-- Is what a parked warp waits for there? (DESIGN CHOICE, log 31: safe.) -/
def State.waitOver (s : State) (u : Nat) : Bool :=
  let w := s.warp u
  s.waitsEnd w.gang && match w.wait with
  | .line k => w.woken.any (fun x => x.1 == k)
  | .code ck pg => (s.ctx ck).codePages.get pg != .unverified || (match s.translateAt (quadCluster w.quad) (ck / 64) (ck % 64) .code .fetch w.isSup (65536 * pg) with
    | .cause _ => true
    | .ok _ _ => false)
  | .batch b => (w.batches.get b).all (·.done)
  | _ => false

end Sys2Proof.Machine
end

