-- ==== Sys2Proof/Machine/Memory.lean ====
section
/-! DEFINITION. Loads, stores, presence instructions (R176 to R190), atomics and reductions (R204 to R212), FENCE and GENBUMP
(R213, R214). -/
set_option autoImplicit false

namespace Sys2Proof.Machine

/-! ### Loads (R178, R186) -/

/-- The destination words of one lane: zero- or sign-extended below four bytes (R178). -/
def loadWords (n : Nat) (sgn : Bool) (b : List Byte) : List Word :=
  if n < 4 then [BitVec.ofInt 32 (readInt sgn (8 * n) (bytesNat b))]
  else (List.range (n / 4)).map (fun j => BitVec.ofNat 32 (bytesNat ((b.drop (4 * j)).take 4)))

/-- Expect a reply: its number (R31). (DESIGN CHOICE, log 18: unsafe.) -/
def State.addReply (s : State) (r : Reply) : Nat × State :=
  let (id, s) := s.fresh
  (id, s.updMe (fun w => { w with replies := w.replies.set id r }))

/-- The address of each lane of a domain access. -/
def ranksOf (sp : Space) (refs : List LaneRef) : List (Nat × Nat) :=
  if sp == .dom then refs.map (fun r => (r.lane, r.ea)) else []

/-- The lines that the lanes of an access touch. -/
def keysOf (refs : List LaneRef) : List Nat := refs.flatMap (fun r => r.pieces.flatMap Piece.keys)

/-- The locations that they read or write. -/
def locsOf (refs : List LaneRef) : List Nat := refs.flatMap LaneRef.locs

/-- Does an access touch a page with the TSO attribute (R239)? -/
def tsoOf (refs : List LaneRef) : Bool := refs.any (fun r => r.pieces.any (·.tso))

/-- One lane's accesses, a 16-byte unit each (R180). -/
def LaneRef.lateUnits (r : LaneRef) : List LateUnit :=
  ((r.locs.map (· / 16)).eraseDups).map (fun k =>
    { lane := r.lane, off := r.locs.findIdx (· / 16 == k), locs := r.locs.filter (· / 16 == k) })

/-- The destination registers of a load, from the bytes of each lane; none for a lane that reads nothing (R178, R186). -/
def loadVals (size : Nat) (n : Nat) (sgn : Bool) (bytes : Nat → Option (List Byte)) : List Lanes :=
  let all := (List.range 32).map (fun l => match bytes l with
    | some b => loadWords n sgn b
    | none => [])
  (List.range size).map (fun j => Lanes.ofFn (fun l => (all.getD l []).getD j 0#32))

/-- A load (R178): `sp` its space. Its accesses take their values as it executes, and may take later ones until something orders them: an
acquire, any later event of its warp (R219, R225, R228). (DESIGN CHOICE, log 18: unsafe; DEDUCED, log 20: unsafe.) -/
def State.loadOp (s : State) (i : Instr) (sp : Space) (o : LdOp) : State :=
  let m := s.me.step.issue
  s.checked i m (fun s =>
    let n := sizeBytes o.size
    let ea := s.ea sp o.s0 o.off.toInt
    s.onCheck (s.check sp .read n (min n 16) m o.np true ea) (fun refs =>
      let u := s.actor
      let c := quadCluster s.me.quad
      let s := (((s.tlbUse sp .read refs).fenced u).settleOwn u (locsOf refs)).settleLate u (locsOf refs)
      let s := if sp == .host then s.landSeen u (refs.flatMap LaneRef.locs) else s
      let entries := s.missLines c sp refs
      let good := refs.filter (fun r => !(o.np && (s.absentLine c sp .read r).isSome))
      let s := s.fillFor c sp good
      let bytes (l : Nat) : Option (List Byte) := (good.find? (fun r => r.lane == l)).map (s.laneBytes u c sp)
      let vals := loadVals (sizeRegs o.size) n o.sgn bytes
      let acq := Order.isAcq o.ord || tsoOf refs
      let s := s.takeDebt u (good.flatMap LaneRef.locs) (keysOf refs)
      let s := if sp == .gang then s else s.logRead u m (good.flatMap (s.laneBytes u c sp))
      let m11 := s.me.mergeMask 511 m (Mask.ofFn (fun l => good.any (fun r => r.lane == l)))
      let (id, s) := s.addReply { base := o.d.toNat, n := if o.v then 0 else vals.length, lanes := m, vals := vals, have_ := true, host := sp == .host, ranks := ranksOf sp refs, addrs := Lanes.ofFn (fun l => BitVec.ofNat 32 (ea l)), at_ := s.clock, entries := entries, late := good.flatMap LaneRef.lateUnits, size := n, sgn := o.sgn, cached := cachedSpace sp && !tsoOf refs && !s.me.pastAcq, acq := acq, bump := acq && (tsoOf refs || wideScope o.scope) }
      s.finish o.e (some (s.freeOut m (vals.headD []))) (.reply id :: (if o.np then [s.me.maskWrite 511 m m11] else [])) []))

/-- Is a location in gang memory? -/
def isGangLoc (loc : Nat) : Bool := 2 ^ 50 ≤ loc && loc < 2 ^ 64

/-- The bytes that a reply holds for one lane. -/
def Reply.laneData (r : Reply) (l : Nat) : List Byte := r.vals.flatMap (fun v => natBytes 4 (v.at l).toNat)

/-- A reply with the bytes of one lane. -/
def Reply.setLane (r : Reply) (l : Nat) (b : List Byte) : Reply :=
  let ws := loadWords r.size r.sgn b
  { r with vals := (r.vals.zipIdx).map (fun x => Lanes.put x.1 l (ws.getD x.2 0#32)) }

/-- One access of a pending load of warp `u` takes its value anew: later than the ones before it (R219, R228). -/
def State.loadLate (s : State) (u id k : Nat) : State :=
  let w := s.warp u
  let r := w.replies.get id
  match r.late[k]? with
  | none => s
  | some x =>
    if !w.live || s.frozen w.gang then s
    else
      let s := if x.locs.any (fun a => 2 ^ 64 ≤ a && a < 2 ^ 80) then s.landSeen u x.locs else s
      let b := x.locs.map (s.byteFor u (quadCluster w.quad) r.cached)
      let old := r.laneData x.lane
      let s := (s.updReply u id (fun r => r.setLane x.lane (old.take x.off ++ b ++ old.drop (x.off + b.length)))).takeDebt u x.locs []
      let s := s.updWarp u (fun w => w.arrive id (s.latchValue w (w.replies.get id)))
      if x.locs.any isGangLoc then s else s.logRead u (Mask.single x.lane) b

/-- LDSPL (R170, R178). -/
def execLdspl (o : LdOp) (s : State) : Out := .next (s.loadOp (.ldspl o) .spill o)

/-- LDGNG (R171, R178). -/
def execLdgng (o : LdOp) (s : State) : Out := .next (s.loadOp (.ldgng o) .gang o)

/-- LDSCR (R172, R178, R186). -/
def execLdscr (o : LdOp) (s : State) : Out := .next (s.loadOp (.ldscr o) .scr o)

/-- LDDOM (R173, R178, R186). -/
def execLddom (o : LdOp) (s : State) : Out := .next (s.loadOp (.lddom o) .dom o)

/-- LDHST (R174, R178). -/
def execLdhst (o : LdOp) (s : State) : Out := .next (s.loadOp (.ldhst o) .host o)

/-! ### Stores (R178, R179) -/

/-- Word `j` of the store data of lane `l` (R42, R178). -/
def State.dataWord (s : State) (x : Src) (j l : Nat) : Word :=
  match x with
  | .vec r => s.me.vword (r.toNat + j) l
  | .scal r => s.me.sword (r.toNat + j)
  | y => s.srcW y l

/-- The low `n` bytes of lane `l`'s data. -/
def State.dataBytes (s : State) (x : Src) (n l : Nat) : List Byte :=
  ((List.range ((n + 3) / 4)).flatMap (fun j => natBytes 4 (s.dataWord x j l).toNat)).take n

/-- The posted host writes of a store: one for each lane's bytes within one 16-byte unit (R247). `first` is the window address of the
lane's first byte. -/
def State.postHost (s : State) (tso : Bool) (ck : Nat) (refs : List LaneRef) (data : Nat → List Byte) : State :=
  refs.foldl (fun s r =>
    (unitsOf (r.locs.zip (data r.lane))).foldl (fun s cells =>
      let (id, s) := s.fresh
      let at_ := r.ea + r.locs.findIdx (· == (cells.map (·.1)).headD 0)
      { s with hostStores := s.hostStores.set id { live := true, tso := tso, warp := s.actor, ck := ck, addr := BitVec.ofNat 32 at_, cells := cells } }) s) s

/-- A store that stays away from its memory port for now (R228). -/
def State.holdStore (s : State) (h : HeldStore) : State :=
  let (id, s) := s.fresh
  { s with heldStores := s.heldStores.set id h }

/-- What orders a write of the executing warp before it performs: the fences of its step, its own release, the TSO attribute of a page
(R225, R239). -/
def State.orderWrite (s : State) (ord : Order) (scope : Scope) (sp : Space) (tso : Bool) : State :=
  let s := s.fenced s.actor
  if Order.isRel ord then s.release s.actor s.nextUid scope
  else if tso then (if sp == .host then s.settleEngine s.actor else s.release s.actor s.nextUid .sys)
  else s

/-- Stores of the executing warp, each access with its bytes: they perform now, or are held back (R228): what they are ordered after has
performed. The gang memory of a replay gang stands at every boundary as its steps wrote it (R375). -/
def State.plainStore (s : State) (sp : Space) (xs : List (LaneRef × List Byte)) : State :=
  let u := s.actor
  let c := quadCluster s.me.quad
  let ck := s.ckOf s.me
  let refs := xs.map (·.1)
  let ranks := ranksOf sp refs
  let s' :=
    if s.holds.headD false && !(sp == .gang && (s.launch (s.gangOf s.me).launch).replay) then
      s.holdStore { live := true, warp := u, ck := ck, cluster := c, gang := sp == .gang, units := xs.flatMap (fun x => unitsOf (x.1.locs.zip x.2)), tso := tsoOf refs, ranks := ranks, idx := s.me.step.idx }
    else ((s.putCells [c] (sp == .gang) (xs.flatMap (fun x => x.1.locs.zip x.2))).leaveDebt u s.nextUid (debtKeys (refs.flatMap LaneRef.locs) [])).addAcks
      s.nextUid u ck 0 false 1 s.me.step.idx ranks
  { s' with holds := s.holds.drop 1 }

/-- A store (R178): it performs for every lane or for none. It may be held back (R228). -/
def State.storeOp (s : State) (i : Instr) (sp : Space) (o : StOp) : State :=
  let m := s.me.step.issue
  s.checked i m (fun s =>
    let n := sizeBytes o.size
    let ea := s.ea sp o.s0 o.off.toInt
    s.onCheck (s.check sp .write n (min n 16) m false false ea) (fun refs => s.performs o.e (fun s =>
      let u := s.actor
      let data := s.dataBytes o.data n
      let s := (((s.tlbUse sp .write refs).orderWrite o.ord o.scope sp (tsoOf refs)).settleOwn u (locsOf refs)).settleHeld u (locsOf refs)
      let s := if sp == .host then s.postHost (tsoOf refs) (s.ckOf s.me) refs data
        else s.plainStore sp (refs.map (fun r => (r, data r.lane)))
      s.finish o.e none [] [])))

/-- STSPL (R170, R178). -/
def execStspl (o : StOp) (s : State) : Out := .next (s.storeOp (.stspl o) .spill o)

/-- STGNG (R171, R178). -/
def execStgng (o : StOp) (s : State) : Out := .next (s.storeOp (.stgng o) .gang o)

/-- STSCR (R172, R178). -/
def execStscr (o : StOp) (s : State) : Out := .next (s.storeOp (.stscr o) .scr o)

/-- STDOM (R173, R178). -/
def execStdom (o : StOp) (s : State) : Out := .next (s.storeOp (.stdom o) .dom o)

/-- STHST (R174, R178, R247): a posted write. -/
def execSthst (o : StOp) (s : State) : Out := .next (s.storeOp (.sthst o) .host o)

/-! ### Presence (R187) -/

/-- The scope at which a releasing PSET acts: what goes before it is seen by every reader of the line (R233). -/
def presScope : Scope → Scope
  | .warp | .gang => .part
  | sc => sc

/-- PSET and PCLR set the state of each lane's line, now or, held back, later (R184, R187, R228). -/
def State.presenceOp (s : State) (i : Instr) (o : LdOp) (st : LineState) : State :=
  let m := s.me.step.issue
  s.checked i m (fun s =>
    let ea := s.ea .scr o.s0 o.off.toInt
    s.onCheck (s.check .scr .presSet 128 128 m false false ea) (fun refs => s.performs o.e (fun s =>
      let u := s.actor
      let c := quadCluster s.me.quad
      let s := (s.tlbUse .scr .presSet refs).orderWrite o.ord (presScope o.scope) .scr (tsoOf refs)
      let s := (s.settleWipes u ((keysOf refs).map (128 * ·))).drainHeld (fun h => h.seenBy u c && (keysOf refs).any (fun k => (h.lineAt k).isSome))
      let xs := (keysOf refs).map (fun k => (k, st))
      let s' := if s.holds.headD false then s.holdStore { live := true, warp := u, ck := s.ckOf s.me, cluster := c, pres := xs, tso := tsoOf refs }
        else (s.setLines [c] xs).leaveDebt u s.nextUid (debtKeys [] (keysOf refs))
      { s' with holds := s.holds.drop 1 }.finish o.e none [] [])))

/-- PSET (R187). -/
def execPset (o : LdOp) (s : State) : Out := .next (s.presenceOp (.pset o) o .present)

/-- PCLR (R187). -/
def execPclr (o : LdOp) (s : State) : Out := .next (s.presenceOp (.pclr o) o .absent)

/-- The number PQRY gives for a state. -/
def LineState.code : LineState → Nat
  | .absent => 0
  | .present => 1
  | .failed => 2

/-- PQRY (R187): it reads the state at the memory port, and its cluster's L1 keeps no older state of the line (R222). Its lanes read at one
time. (DESIGN CHOICE, log 86: unsafe.) -/
def execPqry (o : LdOp) (s : State) : Out :=
  let m := s.me.step.issue
  .next (s.checked (.pqry o) m (fun s =>
    let ea := s.ea .scr o.s0 o.off.toInt
    s.onCheck (s.check .scr .presQuery 128 128 m false false ea) (fun refs =>
      let s := (((s.tlbUse .scr .presQuery refs).fenced s.actor).settleWipes s.actor ((keysOf refs).map (128 * ·))).takeDebt s.actor [] (keysOf refs)
      let c := quadCluster s.me.quad
      let val (l : Nat) : Nat := match refs.find? (fun r => r.lane == l) with
        | some r => ((r.pieces.flatMap Piece.keys).map (fun k => (s.lineFor s.actor c k).code)).headD 1
        | none => (s.freeAt l).toNat
      let t := (keysOf refs).foldl (fun s k => s.dropLine c k) s
      let t := if Order.isAcq o.ord && wideScope o.scope then t.bumpGen c else t
      (t.logRead t.actor m (refs.flatMap (fun r => natBytes 4 (val r.lane)))).putV o.e o.v o.d.toNat m false (fun l => (val l, 0)))))

/-! ### Atomics and reductions (R204 to R212) -/

/-- An atomic (`reply`) or a reduction: it enters the write queue of its memory port; on a TSO page a reduction performs there before
any later write of the warp (R239). A latch takes an atomic's value as it arrives (R25, R29). (DEDUCED, log 19: unsafe.) -/
def State.atomicOp (s : State) (i : Instr) (sp : Space) (reply : Bool) (o : AOp) : State :=
  let m := s.me.step.issue
  s.checked i m (fun s =>
    let n := aopBytes o.aop
    let t := aopTy o.aop
    let ea := s.ea sp o.s0 0
    s.onCheck (s.check sp .atomic n n m false reply ea) (fun refs => s.performs o.e (fun s =>
      let u := s.actor
      let ck := s.ckOf s.me
      let c := quadCluster s.me.quad
      let lanes : List LaneOp := refs.map (fun r => { lane := r.lane, loc := ((r.pieces.map (·.loc)).headD 0), data := s.src t o.s1 r.lane, cmp := if aopCas o.aop then s.src t o.s2 r.lane else 0 })
      let tso := tsoOf refs
      let s := (((s.tlbUse sp .atomic refs).orderWrite o.ord o.scope sp tso).settleWipes u (locsOf refs)).settleHeld u (locsOf refs)
      let s := if sp == .host then s.landSeen u (refs.flatMap LaneRef.locs) else s
      let op : PortOp := { live := true, warp := u, gang := s.me.gang, ck := ck, cluster := c, aop := o.aop, space := spaceCode sp, lanes := lanes, ranks := ranksOf sp refs, idx := s.me.step.idx }
      if reply then
        let (rid, s) := s.addReply { base := o.d.toNat, n := if o.v then 0 else if aop64 o.aop then 2 else 1, lanes := m, atomic := sp != .gang, host := sp == .host, ranks := ranksOf sp refs, addrs := Lanes.ofFn (fun l => BitVec.ofNat 32 (ea l)), at_ := s.clock }
        let (id, s) := s.fresh
        let acq := Order.isAcq o.ord || tso
        let s := { s with portOps := s.portOps.set id { op with reply := some rid, acq := acq, bump := acq && (tso || wideScope o.scope) } }
        s.finish o.e (some (s.freeOut 0#32 [])) [.reply rid] []
      else
        let (id, s) := s.fresh
        let s := { s with portOps := s.portOps.set id op }
        (if tso then s.drainTo [id] else s).finish o.e none [] [])))

/-- ATMGNG (R207, R208). -/
def execAtmgng (o : AOp) (s : State) : Out := .next (s.atomicOp (.atmgng o) .gang true o)

/-- ATMSCR (R207). -/
def execAtmscr (o : AOp) (s : State) : Out := .next (s.atomicOp (.atmscr o) .scr true o)

/-- REDSCR (R207). -/
def execRedscr (o : AOp) (s : State) : Out := .next (s.atomicOp (.redscr o) .scr false o)

/-- ATMDOM (R207). -/
def execAtmdom (o : AOp) (s : State) : Out := .next (s.atomicOp (.atmdom o) .dom true o)

/-- REDDOM (R207). -/
def execReddom (o : AOp) (s : State) : Out := .next (s.atomicOp (.reddom o) .dom false o)

/-- ATMHST (R207, R212). -/
def execAtmhst (o : AOp) (s : State) : Out := .next (s.atomicOp (.atmhst o) .host true o)

/-! ### Fences (R213, R214) -/

/-- FENCE (R213): what it does, it does at the commit of its step. b0 takes the flags as they stand when it executes, sD those of the
commit. (DESIGN CHOICE, log 87: unsafe.) -/
def execFence (o : FenceOp) (s : State) : Out :=
  let d := if o.rf && !o.v then some o.d.toNat else none
  let flags := BitVec.ofNat 32 (s.remoteOr (s.ckOf s.me))
  .next (s.finish o.e (if o.rf then some (Lanes.splat flags) else none) [.fence o.ord o.scope o.rf d s.nextUid] [])

/-- GENBUMP (R214). -/
def execGenbump (o : NOp) (s : State) : Out := .next (s.finish o.e none [.genbump] [])

end Sys2Proof.Machine
end

