-- ==== Sys2Proof/Machine/Matrix.lean ====
section
/-! DEFINITION. The matrix units and the accumulator (R146 to R166): segments, queues, MMA in its one order, the conversions in
and out, the supervisor's instructions. -/
set_option autoImplicit false

namespace Sys2Proof.Machine

/-! ### Segments (R96, R159) -/

/-- Row `r` of segment `k`: 32 FP32e codes. -/
def Quad.row (q : Quad) (k r : Nat) : List Nat :=
  let x := q.rows.get (32 * k + r)
  (List.range 32).map (fun c => x.getD c 0)

/-- Write a row; a row of +0 is not listed. -/
def Quad.setRow (q : Quad) (k r : Nat) (x : List Nat) : Quad :=
  { q with rows := q.rows.set (32 * k + r) (if x.all (· == 0) then [] else x) }

/-- Set or clear bit `k` of a six-bit set. -/
def setBit (x k : Nat) (b : Bool) : Nat := if x / 2 ^ k % 2 = 1 then (if b then x else x - 2 ^ k) else (if b then x + 2 ^ k else x)

/-- The segments of a set. -/
def segsOf (x : Nat) : List Nat := (List.range 6).filter (fun k => x / 2 ^ k % 2 == 1)

/-- Every element of a segment becomes +0; its poison is cleared (R354). -/
def Quad.zeroSeg (q : Quad) (k : Nat) (live : Bool) : Quad :=
  { q with rows := q.rows.keep (fun i _ => i / 32 != k), live := setBit q.live k live, segPoison := setBit q.segPoison k false }

/-- Write the rows of `m`; a write of all 32 rows clears the segment's poison (R354). -/
def Quad.putRows (q : Quad) (k : Nat) (m : Mask) (codes : List (List Nat)) : Quad :=
  let q := m.lanes.foldl (fun q r => q.setRow k r (codes.getD r [])) q
  { q with live := setBit q.live k true, segPoison := if m = Mask.full then setBit q.segPoison k false else q.segPoison }

/-- One row in the main plane of an image, and in the extension plane (R96). -/
def mainBytes (row : List Nat) : List Byte := row.flatMap (fun c => natBytes 4 (f32eMain c).toNat)
def extBytes (row : List Nat) : List Byte :=
  (List.range 8).map (fun b => BitVec.ofNat 8 ((List.range 4).foldl (fun a j => a + f32eExt (row.getD (4 * b + j) 0) * 4 ^ j) 0))

/-- The 4,352-byte image of a segment (R96, R164). -/
def Quad.image (q : Quad) (k : Nat) : List Byte :=
  (List.range 32).flatMap (fun r => mainBytes (q.row k r)) ++ (List.range 32).flatMap (fun r => extBytes (q.row k r))

/-- A row of codes from its bytes in the two planes. -/
def imageRow (main ext : List Byte) : List Nat :=
  (List.range 32).map (fun c => f32eCode (BitVec.ofNat 32 (bytesNat ((main.drop (4 * c)).take 4))) (bytesNat ((ext.drop (c / 4)).take 1) / 4 ^ (c % 4) % 4))

/-- The rows of an image. -/
def imageRows (img : List Byte) : List (List Nat) :=
  (List.range 32).map (fun r => imageRow ((img.drop (128 * r)).take 128) ((img.drop (4096 + 8 * r)).take 8))

/-! ### One block (R155) -/

/-- `to_f32e` (R97). -/
def toF32e (x : XReal) : Nat := (round .f32e .rne false x).1

/-- `block_step` on its terms, the incoming C first. -/
def blockStep (ts : List XReal) : Nat :=
  let pinf := ts.any (fun t => t == .inf false)
  let ninf := ts.any (fun t => t == .inf true)
  if ts.any XReal.isNan || (pinf && ninf) then Fmt.f32e.defaultNan
  else if pinf then toF32e (.inf false)
  else if ninf then toF32e (.inf true)
  else if ts.all XReal.isZero then (if ts.all XReal.signBit then toF32e (.fin true 0 1) else 0)
  else
    let exps := ts.filterMap (fun t => match t with
      | .fin _ n d => if n = 0 then none else some (floorLog2 n d)
      | _ => none)
    let q : Int := exps.foldl max (exps.headD 0) - 49
    let S : Int := ts.foldl (fun a t => match t with
      | .fin s n d => let k : Int := roundGrid .rtz s n d q; if s then a - k else a + k
      | _ => a) 0
    if S = 0 then 0 else toF32e ((XReal.fin (S < 0) S.natAbs 1).scale q)

/-- The value of a block scale code (R95, R153). -/
def scaleVal (s : Nat) : XReal :=
  if s = 0 then .fin false 0 1 else if s = 0xFF then .nan false else (XReal.fin false 1 1).scale ((s : Int) - 128)

/-- Is the format complex? -/
def fmtCplx (f : BitVec 6) : Bool := f == 0x0C#6 || f == 0x0D#6

/-- Width of one B element, and of one A element, in bytes (R149). -/
def mmaBytes (f : BitVec 6) : Nat := if fmtCplx f then 4 else if fmtIsB8 f || f == 0x08#6 || f == 0x09#6 then 1 else 2

/-- Registers of a 32 × 32 block of A (R149). -/
def mmaRa (f : BitVec 6) : Nat := 8 * mmaBytes f

/-- Element k of a row of A in a block that starts at register `i` of the captured ones, lane `L` (R151). -/
def MmaJob.aCode (j : MmaJob) (i L k : Nat) : Nat :=
  let e := mmaBytes j.af
  let per := 4 / e
  (Lanes.at (j.a.getD (i + k / per) []) L).toNat / 2 ^ (8 * e * (k % per)) % 2 ^ (8 * e)

/-- The codes of one row of B. -/
def MmaJob.bCodes (j : MmaJob) (k : Nat) : List Nat :=
  let e := mmaBytes j.bf
  let r := j.b.data.getD k []
  (List.range 32).map (fun c => bytesNat ((r.drop (e * c)).take e))

/-- An exact product of an element of A and one of B: one of integers is an integer and has no negative zero (R155). -/
def mmaProd (f : BitVec 6) (a b : XReal) : XReal :=
  let p := (xmul a b).1
  if (f == 0x08#6 || f == 0x09#6) && p.isZero then .fin false 0 1 else p

/-- Byte `i` of a word. -/
def byteOf (w : Word) (i : Nat) : Nat := w.toNat / 2 ^ (8 * i) % 256

/-- The new elements of row `L` of row block `r`: the codes of one segment, or of the real and of the imaginary one. `bv` are the
values of B by row and column. -/
def MmaJob.newRow (j : MmaJob) (bv : List (List (XReal × XReal))) (r L : Nat) (old0 old1 : List Nat) : List (Nat × Nat) :=
  let ra := mmaRa j.af
  let fa := Fmt.ofCode j.af
  let split (f : Fmt) (c : Nat) : XReal × XReal :=
    if fmtCplx j.af then (decodeVal f (c % 65536), decodeVal f (c / 65536)) else (decodeVal f c, .fin false 0 1)
  let av := (List.range j.kb).map (fun kb => (List.range 32).map (fun k => split fa (j.aCode (ra * (r * j.kb + kb)) L k)))
  (List.range 32).map (fun c =>
    (List.range j.kb).foldl (fun (acc : Nat × Nat) kb =>
      let ab := ((av.getD kb []).zip ((bv.drop (32 * kb)).take 32)).map (fun x => (x.1, x.2.getD c default))
      let C0 := decodeVal .f32e acc.1
      if fmtCplx j.af then
        let C1 := decodeVal .f32e acc.2
        let re := ab.flatMap (fun x => [(xmul x.1.1 x.2.1).1, (xmul x.1.2 x.2.2).1.neg])
        let im := ab.flatMap (fun x => [(xmul x.1.1 x.2.2).1, (xmul x.1.2 x.2.1).1])
        (blockStep (C0 :: re), blockStep (C1 :: im))
      else
        let sa := scaleVal (byteOf (Lanes.at (j.sa.getD r []) L) (j.sba + kb))
        let sb := scaleVal (byteOf (j.sb.at c) (j.sbb + kb))
        let ps := ab.map (fun x => let p := mmaProd j.af x.1.1 x.2.1; if j.scl then (xmul sa (xmul sb p).1).1 else p)
        (blockStep (C0 :: ps), 0)) (old0.getD c 0, old1.getD c 0))

/-- Execute an MMA on its member (R155). -/
def Quad.doMma (q : Quad) (j : MmaJob) : Quad :=
  let fb := Fmt.ofCode j.bf
  let bv := (List.range (32 * j.kb)).map (fun k => (j.bCodes k).map (fun c =>
    if fmtCplx j.bf then (decodeVal fb (c % 65536), decodeVal fb (c / 65536)) else (decodeVal fb c, XReal.fin false 0 1)))
  (List.range j.rb).foldl (fun q r =>
    let k0 := j.seg0 + (if fmtCplx j.af then 2 * r else r)
    let old (q : Quad) (k L : Nat) : List Nat := if j.acc then q.row k L else []
    let q := j.rows.lanes.foldl (fun q L =>
      let x := j.newRow bv r L (old q k0 L) (old q (k0 + 1) L)
      let q := q.setRow k0 L (x.map (·.1))
      if fmtCplx j.af then q.setRow (k0 + 1) L (x.map (·.2)) else q) q
    let q := { q with live := setBit q.live k0 true }
    if fmtCplx j.af then { q with live := setBit q.live (k0 + 1) true } else q) q

/-- Bytes of an element of format F. -/
def accBytes (f : BitVec 6) : Nat := if f == 0x00#6 || f == 0x0E#6 then 4 else if fmtIsB8 f then 1 else 2

/-- Codes of format F as FP32e, a NaN as the default NaN (R163, R164). -/
def widenRow (f : BitVec 6) (row : List Nat) : List Nat := row.map (fun c => toF32e (decodeVal (Fmt.ofCode f) c))

/-- The rows that ACCLD has read, in its format: under f32e a row has an access in each plane (R164). -/
def loadedRows (f : BitVec 6) (m : Mask) (data : List (List Byte)) : List (List Nat) :=
  let e := accBytes f
  (List.range 32).map (fun l =>
    let i := (m.lanes.filter (· < l)).length
    if !m.has l then []
    else if f == 0x0E#6 then widenRow f (imageRow (data.getD (2 * i) []) (data.getD (2 * i + 1) []))
    else widenRow f ((List.range 32).map (fun c => bytesNat (((data.getD i []).drop (e * c)).take e))))

/-- Segments that an operation in a queue writes. -/
def MatOp.segs : MatOp → List Nat
  | .fill m _ => segsOf m
  | .put k _ _ | .load k _ _ _ => [k]
  | .mma j => (List.range (if fmtCplx j.af then 2 * j.rb else j.rb)).map (j.seg0 + ·)

/-- Execute one operation of a queue (R157, R162 to R164). -/
def Quad.run (q : Quad) : MatOp → Quad
  | .fill m live => (segsOf m).foldl (fun q k => q.zeroSeg k live) q
  | .put k m codes => q.putRows k m codes
  | .load k m f x => q.putRows k m (loadedRows f m x.data)
  | .mma j => q.doMma j

/-- Take the first operation of the queue. -/
def Quad.execHead (q : Quad) : Quad :=
  match q.queue with
  | [] => q
  | x :: r => { q with queue := r }.run x

/-! ### Members and selectors (R146, R147, R165) -/

/-- The gang-relative quadrant of a warp. -/
def State.gangQuad (s : State) (w : Warp) : Nat := w.wid % (4 * (s.gangOf w).cores)

/-- The physical quadrant of member `i` (R147). -/
def State.memberQuad (s : State) (w : Warp) (i : Nat) : Nat := (s.gangOf w).physQuad (s.gangQuad w + i)

/-- The quadrant that a selector word names, or the cause and reason of its refusal (R161, R165). -/
def State.selectQuad (s : State) (w : Warp) (sel : Word) : Except (Nat × Nat) Nat :=
  let x := sel.toNat
  let p := s.part (s.partOf w)
  if sel.getLsbD 31 then
    if !(p.base ≤ quadSection (x % 1024) && quadSection (x % 1024) < p.base + p.nsec) then .error (cMATRIX_GROUP, 4)
    else if x / 1024 % 2 ^ 21 != 0 then .error (cMATRIX_SHAPE, 6) else .ok (x % 1024)
  else if w.q ≤ x % 16 then .error (cMATRIX_GROUP, 3)
  else if x / 1024 % 2 ^ 21 != 0 then .error (cMATRIX_SHAPE, 6) else .ok (s.memberQuad w (x % 16))

/-- Scalar `k` of the block that S0 names. -/
def XOp.blkWord (w : Warp) (o : XOp) (k : Nat) : Word :=
  match o.s0 with
  | .scal n => w.sword (n.toNat + k)
  | _ => 0#32

/-! ### The fields of MMA's block (R150 to R153) -/

def shRb (x : Word) : Nat := x.toNat % 16
def shCb (x : Word) : Nat := x.toNat / 16 % 16
def shKb (x : Word) : Nat := x.toNat / 256 % 256
def shSeg0 (x : Word) : Nat := x.toNat / 65536 % 8
def shAcc (x : Word) : Bool := x.getLsbD 19

/-- The A registers and the scale registers that an MMA names. -/
def mmaRuns (w : Warp) (o : XOp) : List RegRun :=
  let sh := XOp.blkWord w o 0
  let ar := (XOp.blkWord w o 1).toNat
  ⟨true, ar % 256, mmaRa o.afmt * shRb sh * shKb sh⟩
    :: (if o.scl then [⟨true, ar / 256 % 256, shRb sh⟩, ⟨true, ar / 65536 % 256, shCb sh⟩] else [])

/-- Those of them that the warp has: the ones whose tags count before the shape is checked (R350). (DEDUCED, log 28: safe.) -/
def mmaReads (w : Warp) (o : XOp) : List RegRun := (mmaRuns w o).map (fun r => { r with n := min r.n (w.vbudget - r.base) })

/-- Checks 1 and 2 of R161 for MMA: the cause and its reason. -/
def mmaShape (w : Warp) (o : XOp) : Option (Nat × Nat) :=
  let sh := XOp.blkWord w o 0
  let ar := (XOp.blkWord w o 1).toNat
  let cx := fmtCplx o.afmt
  let nseg := if cx then 2 * shRb sh else shRb sh
  if w.q < shCb sh then some (cMATRIX_GROUP, 3)
  else if shRb sh = 0 || (if cx then 3 else 6) < shRb sh || 6 < shSeg0 sh + nseg || (cx && shSeg0 sh % 2 == 1) then some (cMATRIX_SHAPE, 1)
  else if shCb sh = 0 then some (cMATRIX_SHAPE, 2)
  else if shKb sh = 0 || 8 < shKb sh then some (cMATRIX_SHAPE, 3)
  else if !((mmaRuns w o).all (fun r => r.base + r.n ≤ w.vbudget)) then some (cMATRIX_SHAPE, 4)
  else if o.scl && (4 < o.sba + shKb sh || 4 < o.sbb + shKb sh) then some (cMATRIX_SHAPE, 5)
  else if sh.toNat / 2 ^ 20 != 0 || ar / 2 ^ 24 != 0 then some (cMATRIX_SHAPE, 6)
  else none

/-- The address of element (k, 32 m) of B (R152). -/
def mmaBaddr (w : Warp) (o : XOp) (m k : Nat) : Nat :=
  let l0 := (XOp.blkWord w o 2).toNat
  let l1 := (XOp.blkWord w o 3).toNat
  let l2 := (XOp.blkWord w o 4).toNat
  16 * (l0 + k / 32 * (l2 % 2 ^ 24) + k % 32 * (l1 % 65536) + m * (l1 / 65536))

/-! ### The waits of R157 and R165 -/

/-- Must the warp's next matrix operation wait: for queued writers of a segment, for an empty queue, for registers of A? (DEDUCED, log 28: safe.) -/
def State.matrixWaits (s : State) (w : Warp) (i : Instr) : Bool :=
  match i with
  | .accrd o | .accst o => o.member < w.q && (s.quad (s.memberQuad w o.member)).queue.any (fun x => x.segs.contains o.seg)
  | .mma o => (mmaShape w o).isNone && w.replies.any (fun r => (mmaRuns w o).any (fun x =>
      r.2.held && r.2.lanes != 0#32 && r.2.vec && r.2.base < x.base + x.n && x.base < r.2.base + r.2.n))
  | .accown o =>
    let sel := match o.s0 with
      | .scal n => w.sword n.toNat
      | .const b k => (s.launch (s.gangOf w).launch).consts.get (128 * b.toNat + k.toNat)
      | .lit n => n.setWidth 32
      | .nlit n => BitVec.ofInt 32 ((n.toNat : Int) - 128)
      | _ => 0#32
    match s.selectQuad w sel with
    | .ok q => !(s.quad q).queue.isEmpty
    | .error _ => false
  | .accspill o | .accfill o =>
    match s.selectQuad w (XOp.blkWord w o 0) with
    | .ok q => !(s.quad q).queue.isEmpty
    | .error _ => false
  | _ => false

/-! ### The checks of R161 -/

/-- A fault with a reason and a member index. -/
def State.matFault (s : State) (cause reason member : Nat) : State :=
  s.raise cause 0#32 (BitVec.ofNat 32 (256 * member + reason)) s.me.step.issue

/-- The live bits of a quadrant once an operation of its queue has executed. -/
def MatOp.liveAfter (live : Nat) : MatOp → Nat
  | .fill m b => (segsOf m).foldl (fun x k => setBit x k b) live
  | x => x.segs.foldl (fun x k => setBit x k true) live

/-- The lowest member whose quadrant the context does not own, with TADDR and TINFO (R160): ALIVE is what the queue leaves live
(R423). -/
def State.notOwned (s : State) (ms : List Nat) : Option (Word × Word) :=
  let w := s.me
  ms.findSome? (fun i =>
    let q := s.quad (s.memberQuad w i)
    if q.owner == some (s.gangOf w).ctx then none
    else
      let own := q.owner.getD 0
      some (BitVec.ofNat 32 (s.memberQuad w i), BitVec.ofNat 32 ((if q.owner.isNone then 65536 else 0) + 1024 * own + 16 * q.queue.foldl MatOp.liveAfter q.live + i)))

/-- Does a queued operation clear the poison of segment `k`: an ACCZ or ACCFREE, or a write of all 32 rows (R354)? -/
def MatOp.cleans (k : Nat) : MatOp → Bool
  | .fill m _ => m / 2 ^ k % 2 == 1
  | .put j m _ | .load j m _ _ => j == k && m == Mask.full
  | .mma _ => false

/-- Is segment `k` poisoned as the next operation of the queue meets it (R157, R354)? -/
def Quad.poisonedAt (q : Quad) (k : Nat) : Bool := q.segPoison / 2 ^ k % 2 == 1 && !q.queue.any (MatOp.cleans k)

/-- Is a named segment of a member poisoned (R354)? -/
def State.segPoisoned (s : State) (ms : List Nat) (ks : List Nat) : Bool :=
  ms.any (fun i => ks.any (fun k => (s.quad (s.memberQuad s.me i)).poisonedAt k))

/-- Is the queue of a member full (R157), or does an older rejected step wait for an engine (R190)? -/
def State.matFull (s : State) (ms : List Nat) : Bool :=
  ms.any (fun i => 16 ≤ (s.quad (s.memberQuad s.me i)).queue.length) || s.olderRejected kENGINE

/-- Checks 4 and the segments' poison, then `k`. -/
def State.owned (s : State) (ms : List Nat) (ks : List Nat) (k : State → State) : State :=
  match s.notOwned ms with
  | some (a, i) => s.raise cACC_FIRST_USE a i s.me.step.issue
  | none => if s.segPoisoned ms ks then s.raise cPOISON 0#32 0#32 s.me.step.issue else k s

/-- Of failures, each a cause and an address, the one at the lowest address. -/
def lowestOf : List (Nat × Nat) → Option (Nat × Nat)
  | [] => none
  | x :: r => some (r.foldl (fun a b => if b.2 < a.2 then b else a) x)

/-- One memory access of a matrix instruction: the row it belongs to, its address and length. -/
structure MatAcc where
  row : Nat
  va : Nat
  len : Nat
  deriving DecidableEq, Repr, Inhabited

/-- Checks 6 and 7 over the accesses: `rows` says that TMASK and MLANE name rows, as for ACCST and ACCLD; else TMASK is the issue
set. `lines` applies check 7. The supervisor's instructions are accesses of the warp, which meet its watchpoints (R363). The lowest failing address is reported. (DEDUCED, log 28: safe.) -/
def State.matCheck (s : State) (sp : Space) (acc : Access) (rows lines : Bool) (xs : List MatAcc) : Chk :=
  let w := s.me
  let c := quadCluster w.quad
  let one (x : MatAcc) : List Piece := piecesOf sp x.va x.len
  let fail (f : MatAcc → Option (Nat × Nat)) : Option Chk :=
    let row (r : Nat) : Option (Nat × Nat) := lowestOf ((xs.filter (fun x => x.row == r)).filterMap f)
    match failOf (Mask.ofFn (fun r => xs.any (fun x => x.row == r))) (spaceCode sp) acc.macc w.step.idx row with
    | some (.fault k a i m) => some (.fault k a i (if rows then m else w.step.issue))
    | x => x
  match fail (fun x => ((one x).find? (fun p => if sp == .gang then (s.gangOf w).gangSize < p.va + p.len else s.outside sp w p)).map (fun p => (cSPACE_LIMIT, p.va))) with
  | some x => x
  | none =>
  match fail (fun x => firstSome (fun p => match s.place sp w acc 0 p with
      | .cause k => some (k, p.va)
      | .ok _ _ => none) (one x)) with
  | some x => x
  | none =>
    let refs : List LaneRef := xs.map (fun x => { lane := x.row, ea := x.va, pieces := (one x).map (fun p => match s.place sp w acc 0 p with
      | .ok loc tso => { p with loc := loc, tso := tso }
      | .cause _ => p) })
    match (if acc == .supRead || acc == .supWrite then s.watchHit w (spaceCode sp) acc.watchBit refs else none) with
    | some (.watch k a _ wide) => .watch k a w.step.issue wide
    | some x => x
    | none =>
    if !lines then .ok refs
    else
      match fail (fun x => s.lineFault c sp acc ((refs.find? (fun r => r.ea == x.va && r.lane == x.row)).getD default)) with
      | some x => x
      | none =>
        match firstSome (s.absentLine c sp acc) refs with
        | some k => .park k
        | none => .ok refs

/-- The bytes of the accesses, through the L1 where the space is cached, after the warp's own writes of them; a replay gang logs
them (R374). -/
def State.matRead (s : State) (sp : Space) (acc : Access) (refs : List LaneRef) : List (List Byte) × State :=
  let u := s.actor
  let c := quadCluster s.me.quad
  let s := (((if acc == .supRead then s.tlbUse sp acc refs else s.tlbKeep sp refs).fenced u).settleOwn u (locsOf refs)).drainHeld (fun h => h.warp == u && h.touches (locsOf refs))
  let s := (if tsoOf refs then s.bumpGen c else s).fillFor c sp refs
  let b := refs.map (s.laneBytes u c sp)
  (b, if sp == .gang then s else s.logRead u Mask.full b.flatten)

/-- What a queued operation keeps of its memory: the bytes read now, and the units that it may read later (R158). -/
def State.matSrc (s : State) (op : Nat) (refs : List LaneRef) (data : List (List Byte)) : MatSrc :=
  { warp := s.actor, op := op, data := data, late := if tsoOf refs then [] else (refs.zipIdx).flatMap (fun x => ({ x.1 with lane := x.2 }).lateUnits) }

/-- A list of accesses with the parts that lie in one 16-byte unit read anew; `byte` are its bytes. -/
def MatSrc.reread (x : MatSrc) (unit : Nat) (byte : Nat → Byte) : MatSrc :=
  (x.late.filter (fun u => u.locs.any (fun a => a / 16 == unit))).foldl (fun x u =>
    let row := x.data.getD u.lane []
    { x with data := x.data.set u.lane (row.take u.off ++ u.locs.map byte ++ row.drop (u.off + u.locs.length)) }) x

/-- The operation at `pos` of a matrix queue reads the 16-byte unit of its part `k` from the memory port, once for all that it reads
there and for every member: later than its perform (R158). -/
def State.matUnit (s : State) (quad pos k : Nat) : State :=
  match ((s.quad quad).queue.getD pos (.fill 0 false)).src with
  | none => s
  | some x =>
    match x.late[k]? with
    | none => s
    | some l =>
      let t := s.mapSrc (fun y => if y.op == x.op then y.reread (l.locs.headD 0 / 16) s.byte else y)
      if (t.warp x.warp).live then t.logRead x.warp Mask.full (l.locs.map s.byte) else t

/-- An operation completes: what it has read there stands for the other members of its MMA too (R158). -/
def State.pinUnits (s : State) (o : MatOp) : State :=
  match o.src with
  | none => s
  | some x => s.mapSrc (fun y => if y.op == x.op then y.keepUnits [] else y)

/-- The stops and records of the watchpoints that the accesses hit (R363, R365). -/
def State.matHits (s : State) (sp : Space) (acc : Access) (xs : List MatAcc) : State :=
  s.hitNow (s.ckOf s.me) s.me.gang (xs.map (fun x => { sp := spaceCode sp, bit := acc.watchBit, va := x.va, len := x.len }))

/-- The partition of a quadrant's section. -/
def State.quadPart (s : State) (quad : Nat) : Nat :=
  ((s.parts.find? (fun e => e.2.live && e.2.base ≤ quadSection quad && quadSection quad < e.2.base + e.2.nsec)).map (·.1)).getD 0

/-- The completion of an operation of a quadrant's matrix unit takes one draw (R237). -/
def State.matDone (s : State) (quad : Nat) : State := (s.seqNext (s.quadPart quad)).2

/-- Enter an operation into the queues of members as one act. -/
def State.enqueue (s : State) (ops : List (Nat × MatOp)) : State :=
  let w := s.me
  ops.foldl (fun s x => s.updQuad (s.memberQuad w x.1) (fun q => { q with queue := q.queue ++ [x.2] })) s

/-- Record conditions before the operation performs, for those that it raises at its checks. -/
def State.addConds (s : State) (cs : List Cond) : State :=
  s.updMe (fun w => { w with step := { w.step with conds := w.step.conds ++ cs } })

/-- Check 5 of R161: a condition of the operation itself whose trap is enabled ends it; a later check that fails takes those of the
operations before it alone (R349), so `k` records `cs` as it performs. (DEDUCED, log 94: unsafe.) -/
def State.ownConds (s : State) (cs : List Cond) (k : List Cond → State) : State :=
  if cs.any (fun c => s.me.sp.fpctl.getLsbD c.bit) then (s.addConds cs).arithTrap s.actor else k cs

/-! ### Conversions (R163) -/

/-- A row of a segment in format F: its codes and the flags of its conversion, a signalling NaN's among them (R90, R102). -/
def convertRow (f : BitVec 6) (m : Rnd) (sat : Bool) (row : List Nat) : List Nat × Nat :=
  let rs := row.map (fun c => let x := decodeVal .f32e c; let r := round (Fmt.ofCode f) m sat x; (r.1, r.2 ||| sigFlag x))
  (rs.map (·.1), rs.foldl (fun a r => a ||| r.2) 0)

/-- Pack the codes of a row into words. -/
def packRow (f : BitVec 6) (row : List Nat) : List Word :=
  let e := accBytes f
  (List.range (accRegs f)).map (fun j => BitVec.ofNat 32 ((List.range (4 / e)).foldl (fun a k => a + row.getD (4 / e * j + k) 0 * 2 ^ (8 * e * k)) 0))

/-- The codes of a row from its words. -/
def unpackRow (f : BitVec 6) (ws : Nat → Word) : List Nat :=
  let e := accBytes f
  (List.range 32).map (fun c => (ws (c * e / 4)).toNat / 2 ^ (8 * e * (c % (4 / e))) % 2 ^ (8 * e))

/-! ### The instructions -/

/-- MGROUP (R147, R149, R161). -/
def execMgroup (o : XOp) (s : State) : Out :=
  let w := s.me
  let g := s.gangQuad w
  .next (
    if 4 * (s.gangOf w).cores < g + o.q then s.matFault cMATRIX_GROUP 1 0
    else if 3 < (g + o.q - 1) / 4 - g / 4 + 1 then s.matFault cMATRIX_GROUP 2 0
    else s.finish o.e none [.mgroup o.q] [])

/-- SCALE_NAN of an MMA: the lanes that hold such a scale byte (R156). -/
def mmaScaleNan (w : Warp) (o : XOp) : Mask :=
  let sh := XOp.blkWord w o 0
  let ar := (XOp.blkWord w o 1).toNat
  let bad (r l i : Nat) : Bool := (List.range (shKb sh)).any (fun kb => byteOf (w.vword r l) (i + kb) == 0xFF)
  if !o.scl then 0#32
  else Mask.ofFn (fun l =>
    (w.step.issue.has l && (List.range (shRb sh)).any (fun r => bad (ar / 256 % 256 + r) l o.sba))
    || (List.range (shCb sh)).any (fun m => bad (ar / 65536 % 256 + m) l o.sbb))

/-- MMA (R149 to R158). (DESIGN CHOICE, log 27: unsafe; DEDUCED, log 28: safe.) -/
def execMma (o : XOp) (s : State) : Out :=
  let m0 := s.me.step.issue
  .next (s.checked (.mma o) m0 (fun s =>
    let w := s.me
    match (w.poisonIn m0 ((mmaReads w o).take (if o.scl then 2 else 1))).or (w.poisonIn Mask.full ((mmaReads w o).drop 2)) with
    | some (c, a, i, lanes) => s.raise c a i lanes
    | none =>
    match mmaShape w o with
    | some (c, r) => s.matFault c r 0
    | none =>
    let sh := XOp.blkWord w o 0
    let ar := (XOp.blkWord w o 1).toNat
    let l2 := (XOp.blkWord w o 4).toNat
    let e := mmaBytes o.bfmt
    let sp : Space := if o.bsp then .scr else .gang
    let cx := fmtCplx o.afmt
    let xs : List MatAcc := (List.range (shCb sh)).flatMap (fun m => (List.range (32 * shKb sh)).map (fun k => { row := 0, va := mmaBaddr w o m k, len := 32 * e }))
    let ms := List.range (shCb sh)
    let segs := (List.range (if cx then 2 * shRb sh else shRb sh)).map (shSeg0 sh + ·)
    if l2 / 2 ^ 24 != 0 then s.raise cLAYOUT_WORD 0#32 0#32 m0
    else
    match lowestOf ((xs.filter (fun x => 128 < x.va % 128 + x.len)).map (fun x => (cMISALIGNED, x.va))) with
    | some (c, a) => s.raise c (BitVec.ofNat 32 a) (memInfo (spaceCode sp) 0 0 w.step.idx a) m0
    | none =>
    s.owned ms segs (fun s =>
      let nan := mmaScaleNan w o
      s.ownConds (if nan = 0#32 then [] else [{ op := w.step.idx, bit := 7, lanes := nan }]) (fun cs =>
      s.onCheck (s.matCheck sp .read false true xs) (fun refs =>
        if s.matFull ms then s.reject kENGINE
        else (s.addConds cs).performs o.e (fun s =>
          let (op, s) := s.fresh
          let r := s.matRead sp .read refs
          let nk := 32 * shKb sh
          let job (m : Nat) : MmaJob :=
            { af := o.afmt, bf := o.bfmt, acc := shAcc sh, rb := shRb sh, kb := shKb sh, seg0 := shSeg0 sh, rows := m0,
              a := (List.range (mmaRa o.afmt * shRb sh * shKb sh)).map (fun j => w.vreg (ar % 256 + j)),
              b := r.2.matSrc op ((refs.drop (nk * m)).take nk) ((r.1.drop (nk * m)).take nk), scl := o.scl, sba := o.sba, sbb := o.sbb,
              sa := if o.scl then (List.range (shRb sh)).map (fun j => w.vreg (ar / 256 % 256 + j)) else [],
              sb := if o.scl then w.vreg (ar / 65536 % 256 + m) else [] }
          ((r.2.enqueue (ms.map (fun m => (m, MatOp.mma (job m))))).matHits sp .read xs).finish o.e none [] []))))))

/-- ACCZ and ACCFREE (R162). -/
def State.accFill (s : State) (o : XOp) (live : Bool) : State :=
  let w := s.me
  let ms := if o.all then List.range w.q else [o.member]
  if !o.all && w.q ≤ o.member then s.matFault cMATRIX_GROUP 3 o.member
  else
    match s.notOwned ms with
    | some (a, i) => s.raise cACC_FIRST_USE a i w.step.issue
    | none =>
        if s.matFull ms then s.reject kENGINE
        else s.performs o.e (fun s => (s.enqueue (ms.map (fun m => (m, MatOp.fill o.segmask live)))).finish o.e none [] [])

/-- ACCZ (R162). -/
def execAccz (o : XOp) (s : State) : Out := .next (s.accFill o true)

/-- ACCFREE (R162). -/
def execAccfree (o : XOp) (s : State) : Out := .next (s.accFill o false)

/-- ACCRD (R157, R163): it waits for queued writes of the segment before it issues. (DEDUCED, log 28: safe.) -/
def execAccrd (o : XOp) (s : State) : Out :=
  let w := s.me
  let m := w.step.issue
  .next (
    if w.q ≤ o.member then s.matFault cMATRIX_GROUP 3 o.member
    else s.owned [o.member] [o.seg] (fun s =>
      if s.matFull [o.member] then s.reject kENGINE
      else
        let q := s.quad (s.memberQuad w o.member)
        let rows := (List.range 32).map (fun l => let x := convertRow o.afmt o.rnd o.sat (q.row o.seg l); (packRow o.afmt x.1, x.2))
        let word (j l : Nat) : Nat := (((rows.getD l ([], 0)).1).getD j 0#32).toNat
        (s.matDone (s.memberQuad w o.member)).putVs o.e o.v o.d.toNat m false ((List.range (accRegs o.afmt)).map (fun j => fun l => (word j l, (rows.getD l ([], 0)).2)))))

/-- ACCWR (R163). -/
def execAccwr (o : XOp) (s : State) : Out :=
  let m := s.me.step.issue
  .next (s.checked (.accwr o) m (fun s =>
    let w := s.me
    if w.q ≤ o.member then s.matFault cMATRIX_GROUP 3 o.member
    else s.owned [o.member] (if m = Mask.full then [] else [o.seg]) (fun s =>
      if s.matFull [o.member] then s.reject kENGINE
      else
        let codes := (List.range 32).map (fun l => widenRow o.afmt (unpackRow o.afmt (fun j => w.vword (o.vbase + j) l)))
        s.performs o.e (fun s => (s.enqueue [(o.member, .put o.seg m codes)]).finish o.e none [] []))))

/-- The accesses of ACCST and ACCLD (R164), row by row: under f32e one in each plane. -/
def accAccesses (w : Warp) (o : XOp) : List MatAcc :=
  let a := (XOp.blkWord w o 0).toNat
  let st := (XOp.blkWord w o 1).toNat
  if o.afmt == 0x0E#6 then
    (List.range 32).flatMap (fun r => [{ row := r, va := a + 128 * r, len := 128 }, { row := r, va := a + 4096 + 8 * r, len := 8 }])
  else w.step.issue.lanes.map (fun r => { row := r, va := a + r * st, len := 32 * accBytes o.afmt })

/-- The misaligned rows of ACCST and ACCLD: of all 32, the rows and the lowest one's address. -/
def accMisaligned (w : Warp) (o : XOp) : Option (Nat × Nat × Mask) :=
  let a := (XOp.blkWord w o 0).toNat
  let st := (XOp.blkWord w o 1).toNat
  if o.afmt == 0x0E#6 then (if a % 128 != 0 then some (0, a, Mask.full) else none)
  else
    let al := min (32 * accBytes o.afmt) 128
    let bad := Mask.ofFn (fun r => (a + r * st) % al != 0)
    if bad = 0#32 then none else some (lowest bad, a + lowest bad * st, bad)

/-- The space that SP names. -/
def XOp.spOf (o : XOp) : Space := if o.sp then .scr else .gang

/-- ACCST (R158, R164), a signalling NaN's flag under f32e too: relaxed stores of the issuing warp, after every check. (DEDUCED, log 28: safe.) -/
def execAccst (o : XOp) (s : State) : Out :=
  let m0 := s.me.step.issue
  .next (s.checked (.accst o) m0 (fun s =>
    let w := s.me
    let f32e := o.afmt == 0x0E#6
    let sp := XOp.spOf o
    if w.q ≤ o.member then s.matFault cMATRIX_GROUP 3 o.member
    else
    match accMisaligned w o with
    | some (r, a, m) => s.raise cMISALIGNED (BitVec.ofNat 32 a) (memInfo (spaceCode sp) 1 r w.step.idx a) m
    | none => s.owned [o.member] [o.seg] (fun s =>
      let q := s.quad (s.memberQuad w o.member)
      let conv := (List.range 32).map (fun r => convertRow o.afmt o.rnd o.sat (q.row o.seg r))
      let row (r : Nat) : List Nat := (conv.getD r ([], 0)).1
      s.ownConds (condsOf w.step.idx m0 (fun l => (conv.getD l ([], 0)).2)) (fun cs =>
      s.onCheck (s.matCheck sp .write true false (accAccesses w o)) (fun refs =>
        if s.matFull [o.member] then s.reject kENGINE
        else (s.addConds cs).performs o.e (fun s =>
          let u := s.actor
          let data (x : LaneRef × Nat) : List Byte :=
            if f32e then (if x.2 % 2 = 0 then mainBytes (row x.1.lane) else extBytes (row x.1.lane))
            else (row x.1.lane).flatMap (natBytes (accBytes o.afmt))
          let s := (((s.tlbKeep sp refs).orderWrite .rlx .warp sp (tsoOf refs)).settleOwn u (locsOf refs)).settleHeld u (locsOf refs)
          let s := s.plainStore sp ((refs.zipIdx).map (fun x => (x.1, data x)))
          ((s.matHits sp .write (accAccesses w o)).matDone (s.memberQuad w o.member)).finish o.e none [] []))))))

/-- ACCLD (R158, R164). (DESIGN CHOICE, log 27: unsafe.) -/
def execAccld (o : XOp) (s : State) : Out :=
  let m0 := s.me.step.issue
  .next (s.checked (.accld o) m0 (fun s =>
    let w := s.me
    let f32e := o.afmt == 0x0E#6
    let sp := XOp.spOf o
    if w.q ≤ o.member then s.matFault cMATRIX_GROUP 3 o.member
    else
    match accMisaligned w o with
    | some (r, a, m) => s.raise cMISALIGNED (BitVec.ofNat 32 a) (memInfo (spaceCode sp) 0 r w.step.idx a) m
    | none =>
      let rows := if f32e then Mask.full else m0
      s.owned [o.member] (if rows = Mask.full then [] else [o.seg]) (fun s =>
      s.onCheck (s.matCheck sp .read true true (accAccesses w o)) (fun refs =>
        if s.matFull [o.member] then s.reject kENGINE
        else s.performs o.e (fun s =>
          let (op, s) := s.fresh
          let r := s.matRead sp .read refs
          ((r.2.enqueue [(o.member, .load o.seg rows o.afmt (r.2.matSrc op refs r.1))]).matHits sp .read (accAccesses w o)).finish o.e none [] [])))))

/-- The word that names an owner: all ones for none. -/
def ownerWord : Option Nat → Word
  | none => 0xFFFFFFFF#32
  | some c => BitVec.ofNat 32 c

/-- ACCOWN (R165): it waits until the quadrant's queue is empty. -/
def execAccown (o : NOp) (s : State) : Out :=
  let m := s.me.execSet o.g
  .next (s.checked (.accown o) m (fun s =>
    let w := s.me
    let new := s.srcW o.s1 0
    match s.selectQuad w (s.srcW o.s0 0) with
    | .error (c, r) => s.matFault c r (if c = cMATRIX_GROUP && r = 3 then (s.srcW o.s0 0).toNat % 16 else 0)
    | .ok q =>
      if 63 < new.toNat && new != 0xFFFFFFFF#32 then s.matFault cMATRIX_SHAPE 6 0
      else s.performs o.e (fun s =>
        let x := s.quad q
        let s := if ownerWord x.owner == new then s
          else s.updQuad q (fun y => { y with owner := if new == 0xFFFFFFFF#32 then none else some new.toNat, live := 0, rows := [], segPoison := 0 })
        s.putS o.e o.v o.d.toNat m true ((ownerWord x.owner).toNat + 2 ^ 32 * x.live))))

/-- The image lines of a set of segments at an address (R165). -/
def segLines (a ks : Nat) : List MatAcc :=
  (segsOf ks).flatMap (fun k => (List.range 34).map (fun j => { row := 0, va := a + 4352 * k + 128 * j, len := 128 }))

/-- The common checks of ACCSPILL and ACCFILL, then `k` with the quadrant, the address and the segment set. -/
def State.segBlock (s : State) (i : Instr) (o : XOp) (acc : Access) (k : Nat → Nat → Nat → State → State) : State :=
  let m := s.me.step.issue
  s.checked i m (fun s =>
    let w := s.me
    let sel := XOp.blkWord w o 0
    let a := (XOp.blkWord w o 1).toNat
    let ks := (XOp.blkWord w o 2).toNat
    match s.selectQuad w sel with
    | .error (c, r) => s.matFault c r (if c = cMATRIX_GROUP && r = 3 then sel.toNat % 16 else 0)
    | .ok q =>
      if ks / 64 != 0 then s.matFault cMATRIX_SHAPE 6 0
      else if a % 128 != 0 then s.raise cMISALIGNED (BitVec.ofNat 32 a) (memInfo 2 acc.macc 0 w.step.idx a) m
      else k q a ks s)

/-- ACCSPILL (R165); a poisoned segment writes poisoned lines (R354). It parks on no line: it reads none, and by R185 no store parks.
(DEDUCED, log 28: safe.) -/
def execAccspill (o : XOp) (s : State) : Out :=
  .next (s.segBlock (.accspill o) o .supWrite (fun q a ks s =>
    let x := s.quad q
    let live := (segsOf ks).foldl (fun y k => if x.live / 2 ^ k % 2 = 1 then y + 2 ^ k else y) 0
    let data := (segsOf live).flatMap (fun k => let img := x.image k; (List.range 34).map (fun j => (k, (img.drop (128 * j)).take 128)))
    s.onCheck (s.matCheck .scr .supWrite false false (segLines a live)) (fun refs => s.performs o.e (fun s =>
      let u := s.actor
      let s := (((s.tlbUse .scr .supWrite refs).orderWrite .rlx .warp .scr (tsoOf refs)).settleOwn u (locsOf refs)).settleHeld u (locsOf refs)
      let s := (refs.zip data).foldl (fun s y =>
        let s := s.putCells [quadCluster s.me.quad] false (y.1.locs.zip y.2.2)
        if x.segPoison / 2 ^ y.2.1 % 2 = 1 then
          { s with poisonLine := (y.1.pieces.flatMap Piece.keys).foldl (fun m k => Map.set m k true) s.poisonLine } else s) s
      (s.matDone q).putS o.e o.v o.d.toNat s.me.step.issue false live))))

/-- ACCFILL (R165). -/
def execAccfill (o : XOp) (s : State) : Out :=
  .next (s.segBlock (.accfill o) o .supRead (fun q a ks s =>
    if (segsOf ks).any (s.quad q).poisonedAt then s.raise cPOISON 0#32 0#32 s.me.step.issue
    else s.onCheck (s.matCheck .scr .supRead false true (segLines a ks)) (fun refs => s.performs o.e (fun s =>
      let r := s.matRead .scr .supRead refs
      let s := (segsOf ks).zipIdx.foldl (fun s y =>
        s.updQuad q (fun x => x.putRows y.1 Mask.full (imageRows ((r.1.drop (34 * y.2)).take 34).flatten))) r.2
      (s.matDone q).putS o.e o.v o.d.toNat s.me.step.issue false ks))))

/-- MATRIX_QUEUE_EXECUTE (R155, R157): the first operation of a quadrant's queue executes; its completion takes a draw (R237). -/
def execMatrixQueueExecute (quad : Nat) (s : State) : Out :=
  .next (match (s.quad quad).queue with
    | [] => s
    | o :: _ => ((s.updQuad quad Quad.execHead).pinUnits o).matDone quad)

end Sys2Proof.Machine
end

