-- ==== Sys2Proof/Machine/Control.lean ====
section
/-! DEFINITION. Control flow, masks, named barriers, special registers and signals (R33, R53, R256 to R273, R298). -/
set_option autoImplicit false

namespace Sys2Proof.Machine

/-! ### Branches (R44, R63, R259) -/

/-- NOP (R53). -/
def execNop (o : NOp) (s : State) : Out := .next (s.finish o.e none [] [])

/-- The address of the executing operation: its own in native code, the guest instruction's under a keyway (R44, R63). -/
def Warp.opAddr (w : Warp) : Word :=
  if w.sp.kwslot = 0 then w.step.first + BitVec.ofNat 32 (8 * w.step.idx) else w.step.first

/-- A branch target (R44, R63). -/
def Warp.target (w : Warp) (pc tgt : Word) : Word := if w.sp.kwslot = 0 then pc + 8#32 * tgt else pc + tgt

/-- The step end of R28. -/
def Warp.stepEnd (w : Warp) : Word := w.step.first + BitVec.ofNat 32 w.step.len

/-- Set next(l) in the lanes of `m` (R27). -/
def State.setNext (s : State) (m : Mask) (f : Nat → Word) : State :=
  s.updMe (fun w => { w with step := { w.step with nexts := (List.range 32).map (fun l => if m.has l then f l else w.step.nexts.getD l w.stepEnd) } })

/-- BRA (R259). -/
def execBra (o : BOp) (s : State) : Out :=
  let m := s.me.execSet o.g
  .next (s.checked (.bra o) m (fun s => (s.setNext m (fun _ => s.me.target s.me.opAddr o.tgt)).finish o.e none [] []))

/-- A branch to an address that each lane reads. -/
def State.branchTo (s : State) (i : Instr) (o : BOp) : State :=
  let m := s.me.execSet o.g
  s.checked i m (fun s => (s.setNext m (s.srcW o.s0)).finish o.e none [] [])

/-- BRI (R259). -/
def execBri (o : BOp) (s : State) : Out := .next (s.branchTo (.bri o) o)

/-- RET (R259). -/
def execRet (o : BOp) (s : State) : Out := .next (s.branchTo (.ret o) o)

/-- The number of the register that a register operand names. -/
def Src.num : Src → Nat
  | .vec n => n.toNat
  | .scal n => n.toNat
  | _ => 0

/-- CALL (R259). -/
def execCall (o : BOp) (s : State) : Out :=
  let m := s.me.execSet o.g
  let w := s.me
  .next (s.checked (.call o) m (fun s =>
    (s.setNext m (fun _ => w.target w.opAddr o.tgt)).finish o.e (some (Lanes.splat w.stepEnd)) [.vec (Src.num o.s0) m (Lanes.splat w.stepEnd)] []))

/-- EXIT (R260). The exited lanes leave every mask, also where R339 lists the masks of the warp that exits. (DEDUCED, log 81: unsafe.) -/
def execExit (o : BOp) (s : State) : Out :=
  let m := s.me.execSet o.g
  .next (s.checked (.exit o) m (fun s => s.finish o.e none [.exit m] []))

/-- ELECT (R261). -/
def execElect (o : NOp) (s : State) : Out :=
  let m := s.me.execSet o.g
  .next (s.checked (.elect o) m (fun s => s.putS o.e o.v o.d.toNat m false (if m = 0#32 then 0 else 2 ^ lowest m)))

/-! ### Counted loops (R262) -/

/-- What the decode of the step at a loop's target shows. -/
inductive LoopTarget
  | step (ops : List Instr) (len : Nat)
  | form
  | park (t : Wait)
  | cause (n : Nat) (taddr tinfo : Word)
  deriving DecidableEq, Repr

/-- Fetch and decode the step at an address as the warp would begin it, and report the outcome. -/
def State.probeStep (s : State) (u : Nat) (pc : Word) (m : Mask) : LoopTarget :=
  let t := s.updWarp u (fun w => { w with step := {}, sp := { w.sp with tcause := 0#32 } })
  let t := if (s.warp u).sp.kwslot = 0 then t.beginNative u pc m else t.beginGuest u pc m
  let w := t.warp u
  if w.step.started then .step w.step.ops w.step.len
  else match w.wait with
    | .code ck pg => .park (.code ck pg)
    | _ =>
      let c := w.sp.tcause.toNat
      if c = cMISALIGNED || c = cPAGE_ABSENT || c = cPAGE_RIGHTS || c = cWALK_ERROR || c = cCODE_INTEGRITY then .cause c w.sp.taddr w.sp.tinfo
      else .form

/-- The reason for which a LOOP is malformed: `ops` are the operations of the target step. -/
def loopReason (w : Warp) (o : BOp) (pc : Word) (ops : List Instr) : Option Nat :=
  match ops.getLast? with
  | some (.lend l) =>
    let at_ := if w.sp.kwslot = 0 then pc + BitVec.ofNat 32 (8 * (ops.length - 1)) else pc
    if l.s0 != o.s0 then some 2
    else if w.target at_ l.tgt != w.stepEnd then some 3
    else if pc.toNat ≤ w.opAddr.toNat then some 4
    else none
  | _ => some 1

/-- The length of the step at an address, whatever its decode comes to: none where its bytes cannot be fetched or its length is not known. -/
def State.stepLen (s : State) (w : Warp) (pc : Word) : Option Nat :=
  let g := s.gangOf w
  let cl := quadCluster w.quad
  if w.sp.kwslot = 0 then
    (match nativeWords s cl g.part g.ctx w.isSup 8 pc.toNat with
      | .ok ws => some (8 * ws.length)
      | .error _ => none)
  else match s.fetch cl g.part g.ctx w.isSup pc.toNat 2 with
    | .ok b => imgLength ((s.part g.part).slots.get w.sp.kwslot).image (bytesNat b)
    | _ => none

/-- Does the body from `pc` to the step at `last` hold at most `fuel` steps? -/
def State.bodyFits (s : State) (w : Warp) (last : Word) : Nat → Word → Bool
  | 0, _ => false
  | fuel + 1, pc =>
    if pc == last then true
    else match s.stepLen w pc with
      | some len => s.bodyFits w last fuel (pc + BitVec.ofNat 32 len)
      | none => false

/-- A warp enters a loop (R76): it shares the quadrant's capture of the same body, or the body is captured if no warp uses the buffer and
the body is short enough. -/
def State.captureLoop (s : State) (last : Word) : State :=
  let w := s.me
  let ck := s.ckOf w
  let slot := w.sp.kwslot
  let gen := s.slotGen (s.partOf w) slot
  let b := (s.quad w.quad).loopBuf
  let same := b.valid && b.ck == ck && b.slot == slot && b.gen == gen && b.start == w.stepEnd
  if same then
    s.updQuad w.quad (fun x => { x with loopBuf := { x.loopBuf with users := s.actor :: x.loopBuf.users.filter (· != s.actor) } })
  else if b.users.isEmpty && s.bodyFits w last 64 w.stepEnd then
    s.updQuad w.quad (fun x => { x with loopBuf := { valid := true, ck := ck, slot := slot, gen := gen, start := w.stepEnd, last := last, users := [s.actor] } })
  else s

/-- LOOP (R262). -/
def execLoop (o : BOp) (s : State) : Out :=
  let m := s.me.step.issue
  .next (s.checked (.loop o) m (fun s =>
    let w := s.me
    let pc := w.target w.opAddr o.tgt
    match s.probeStep s.actor pc m with
    | .park t => s.park t
    | .cause c a i => s.raise c a i m
    | .form => s.raise cLOOP_FORM pc 1#32 m
    | .step ops len =>
      match loopReason w o pc ops with
      | some r => s.raise cLOOP_FORM pc (BitVec.ofNat 32 r) m
      | none =>
        let out := pc + BitVec.ofNat 32 (if w.sp.kwslot = 0 then 8 else len)
        (if s.srcW o.s0 0 == 0#32 then s.setNext m (fun _ => out) else s.captureLoop pc).finish o.e none [] []))

/-- LEND (R262). -/
def execLend (o : BOp) (s : State) : Out :=
  let m := s.me.step.issue
  .next (s.checked (.lend o) m (fun s =>
    let w := s.me
    let n := s.srcW o.s0 0 - 1#32
    (if n != 0#32 then s.setNext m (fun _ => w.target w.opAddr o.tgt) else s).finish o.e (some (Lanes.splat n)) [.scal (Src.num o.s0) n] []))

/-! ### Yield, sleep, traps (R263, R264) -/

/-- YIELD (R263). -/
def execYield (o : NOp) (s : State) : Out := .next (s.finish o.e none [.yield] [])

/-- SLEEP (R263). -/
def execSleep (o : NOp) (s : State) : Out :=
  let m := s.me.step.issue
  .next (s.checked (.sleep o) m (fun s =>
    let x := s.src .n64 o.s0 0
    s.finish o.e none [.sleep (x / 2 ^ 32) (min (x % 2 ^ 32) 999999999)] []))

/-- TRAP (R264): the step commits, and the cause is delivered at its end. -/
def execTrap (o : IOp) (s : State) : Out :=
  let m := s.me.step.issue
  .next (s.finish o.e none (if m = 0#32 then [] else [.softTrap o.imm m]) [])

/-- BKPT (R264). -/
def execBkpt (o : IOp) (s : State) : Out :=
  let m := s.me.step.issue
  .next (if m = 0#32 then s.finish o.e none [] [] else s.raise cBREAKPOINT s.me.step.first o.imm m)

/-- TRET (R264, R346). -/
def execTret (o : NOp) (s : State) : Out :=
  let w := s.me
  .next (
    if w.mode == .user || w.mode == .sup then s.finish o.e none [.tret] []
    else s.raise cILLEGAL_OP w.refusal.1 w.refusal.2 w.step.issue)

/-! ### Special registers (R33, R266) -/

/-- A scalar special register as it stood before the step. (DEDUCED, log 69: safe.) -/
def State.specialReg (s : State) (n : Nat) : Word :=
  let w := s.me
  let g := s.gangOf w
  let q := s.quad w.quad
  match n with
  | 0x01 => BitVec.ofNat 32 w.wid
  | 0x02 => BitVec.ofNat 32 g.gangId
  | 0x03 => BitVec.ofNat 32 w.role
  | 0x04 => BitVec.ofNat 32 w.sp.steps
  | 0x05 => w.sp.stepsHi
  | 0x06 => BitVec.ofNat 32 s.phcFrac
  | 0x07 => w.sp.phcNs
  | 0x08 => w.sp.phcSec
  | 0x09 => w.sp.phcSech
  | 0x0A => w.sp.flags
  | 0x0B => w.sp.fpctl
  | 0x0C => BitVec.ofNat 32 w.sp.kwslot
  | 0x0D => w.sp.spillp
  | 0x0F => w.sp.tcause
  | 0x10 => w.sp.tpc
  | 0x11 => w.sp.taddr
  | 0x12 => w.sp.tmask
  | 0x13 => w.sp.tinfo
  | 0x14 => w.sp.emuvec
  | 0x15 => w.sp.trapvec
  | 0x16 => BitVec.ofNat 32 (s.ctx (s.ckOf w)).dbg.edits
  | 0x20 => BitVec.ofNat 32 g.ctx
  | 0x21 => BitVec.ofNat 32 g.part
  | 0x22 => match q.owner with | none => 0xFFFFFFFF#32 | some c => BitVec.ofNat 32 c
  | 0x23 => BitVec.ofNat 32 q.live
  | 0x24 => w.sp.spillbase
  | 0x25 => w.sp.spillsize
  | 0x26 => BitVec.ofNat 32 (w.quad + quadCluster w.quad * 2 ^ 10 + quadSection w.quad * 2 ^ 15)
  | _ => 0#32

/-- The snapshot that a read takes (R33). (DEDUCED, log 69: safe.) -/
def State.snapBuf (s : State) (n : Nat) : List Buf :=
  match n with
  | 0x04 => [.snapSteps (BitVec.ofNat 32 (s.me.sp.steps / 2 ^ 32))]
  | 0x06 => [.snapPhc (BitVec.ofNat 32 s.phcNs) (BitVec.ofNat 32 s.phcSec) (BitVec.ofNat 32 (s.phcSec / 2 ^ 32 % 65536))]
  | _ => []

/-- Does a replay gang log the read (R374)? -/
def srLogged (n : Nat) : Bool := (6 ≤ n && n ≤ 9) || n == 0x26

/-- RDSR (R266). -/
def execRdsr (o : IOp) (s : State) : Out :=
  let m := s.me.step.issue
  let n := o.imm.toNat
  .next (
    if n = 0 then s.putV o.e o.v o.d.toNat m false (fun l => (l, 0))
    else if n = 0x0E then s.putV o.e o.v o.d.toNat m false (fun l => ((s.me.vpcAt l).toNat, 0))
    else
      let x := s.specialReg n
      let s := if srLogged n then s.logRead s.actor m (natBytes 4 x.toNat) else s
      s.finish o.e (some (Lanes.splat x)) (s.snapBuf n ++ (if o.v then [] else [.scal o.d.toNat x])) [])

/-- WRSR (R266). -/
def execWrsr (o : IOp) (s : State) : Out :=
  let m := s.me.step.issue
  .next (s.checked (.wrsr o) m (fun s => s.finish o.e none [.sr o.imm.toNat (s.srcW o.s0 0)] []))

/-! ### Masks (R267, R268) -/

/-- A mask register after the lanes of `m` are set or cleared. -/
def Warp.maskAfter (w : Warp) (k : Nat) (m v : Mask) : Mask := (w.mreg k &&& ~~~m) ||| (v &&& m)

/-- MJOIN (R267). -/
def execMjoin (o : NOp) (s : State) : Out :=
  let m := s.me.execSet o.g
  let k := o.d.toNat - 500
  .next (s.checked (.mjoin o) m (fun s => s.finish o.e (some (Lanes.splat (s.me.maskAfter k m Mask.full))) [.maskMerge k m Mask.full] []))

/-- MLEAVE (R267). -/
def execMleave (o : NOp) (s : State) : Out :=
  let m := s.me.execSet o.g
  let k := o.d.toNat - 500
  .next (s.checked (.mleave o) m (fun s => s.finish o.e (some (Lanes.splat (s.me.maskAfter k m 0#32))) [.maskMerge k m 0#32] []))

/-- MWAIT (R268). -/
def execMwait (o : NOp) (s : State) : Out :=
  let m := s.me.execSet o.g
  let k := Src.num o.s0 - 500
  .next (s.checked (.mwait o) m (fun s =>
    let out := m &&& ~~~(s.me.mreg k)
    if out != 0#32 then s.raise cMASK_STATE 0#32 (BitVec.ofNat 32 k) out
    else s.finish o.e none [.mwait k m] []))

/-! ### Named barriers (R270, R271, R273) -/

/-- The refusal of an arrival: its reason, by R271. -/
def arriveRefusal (b n live warps count arrived : Nat) : Option Nat :=
  let n' := if b = 0 && n = 0 then live else n
  if b = 0 && n' != live then some 2
  else if b != 0 && (n = 0 || warps < n) then some 2
  else if count != 0 && n' != count then some 1
  else if count != 0 && arrived == count then some 4
  else none

/-- BARRIER_MISMATCH (R271). -/
def State.mismatch (s : State) (b r : Nat) (m : Mask) : State :=
  s.raise cBARRIER_MISMATCH (BitVec.ofNat 32 ((s.gangOf s.me).barrier b).count) (BitVec.ofNat 32 (256 * b + r)) m

/-- An arrival (R271): `wait` for BARSYNC. A phase that ends at the warp's own arrival leaves it no wait. (DEDUCED, log 37: safe.) -/
def State.arriveOp (s : State) (i : Instr) (o : NOp) (wait : Bool) : State :=
  let m := s.me.execSet o.g
  s.checked i m (fun s =>
    if m = 0#32 then s.finish o.e none [] []
    else
      let g := s.me.gang
      let b := (s.srcW o.s0 0).toNat % 32
      let n := (s.srcW o.s1 0).toNat
      let live := (s.liveWarps g).length
      let x := (s.gang g).barrier b
      match arriveRefusal b n live (s.gang g).warps.length x.count x.arrived with
      | some r => s.mismatch b r m
      | none => s.performs o.e (fun s =>
        let s := s.orderWrite .rel .gang .scr false
        let n' := if b = 0 && n = 0 then live else n
        let s := s.updBarrier g b (fun x => { x with count := if x.count = 0 then n' else x.count, arrived := x.arrived + 1 })
        let s := if b = 0 then s.updMe (fun w => { w with barrierArrived := true }) else s
        let y := (s.gang g).barrier b
        let outside := y.balance < -2147483648 || 2147483647 < y.balance
        let s := s.settle g b
        let z := (s.gang g).barrier b
        let buf : List Buf :=
          if !wait then []
          else if z.phase == y.phase then [.barWait b m y.phase]
          else if z.broken then [.barBroken b m (if outside then 4 else 1) y.phase]
          else []
        s.finish o.e none buf []))

/-- BARSYNC (R271). -/
def execBarsync (o : NOp) (s : State) : Out := .next (s.arriveOp (.barsync o) o true)

/-- BARARV (R271). -/
def execBararv (o : NOp) (s : State) : Out := .next (s.arriveOp (.bararv o) o false)

/-- BARBYTES (R271). -/
def execBarbytes (o : NOp) (s : State) : Out :=
  let m := s.me.execSet o.g
  .next (s.checked (.barbytes o) m (fun s =>
    if m = 0#32 then s.finish o.e none [] []
    else
      let g := s.me.gang
      let b := (s.srcW o.s0 0).toNat % 32
      let x := (s.srcW o.s1 0).toNat
      if 2 ^ 31 ≤ x then s.mismatch b 3 m
      else s.performs o.e (fun s =>
        (((s.orderWrite .rel .gang .scr false).updBarrier g b (fun y => { y with balance := y.balance - x })).settle g b).finish o.e none [] [])))

/-- The pair of BARQRY (R273). -/
def Barrier.pair (x : Barrier) : Nat :=
  keep 32 x.balance * 2 ^ 32 + (if x.broken then 2 ^ 31 else 0) + x.phase.toNat % 128 * 2 ^ 24 + x.count % 4096 * 2 ^ 12 + x.arrived % 4096

/-- BARQRY (R273). -/
def execBarqry (o : NOp) (s : State) : Out :=
  let m := s.me.execSet o.g
  .next (s.checked (.barqry o) m (fun s =>
    let x := (s.gangOf s.me).barrier ((s.srcW o.s0 0).toNat % 32)
    (s.logRead s.actor m (natBytes 8 x.pair)).putS o.e o.v o.d.toNat m true x.pair))

/-! ### Signals (R265, R298) -/

/-- PORT_INVALID, PORT_FULL and PATTERN_INVALID (R310). -/
def portInfo (reason num : Nat) : Word := BitVec.ofNat 32 (65536 * reason + num % 65536)

/-- The sender field of a warp's messages (R297). -/
def Warp.senderId (w : Warp) : Nat := w.wid % 2048 + 2048 * (w.role % 4)

/-- OR a signal into the wake register of a resident port (R298). -/
def State.wakePort (s : State) (ck port sender : Nat) (x : Word) : State :=
  let k := portKey ck port
  let p := s.port k
  if x = 0#32 then s
  else if p.wake = 0#32 then
    let (n, s) := s.seqNext (ck / 64)
    s.updPort k (fun p => { p with wake := x, wakeSeq := n, wakeSender := sender, wakeAt := s.phc, lastUsed := s.clock })
  else s.updPort k (fun p => { p with wake := p.wake ||| x, lastUsed := s.clock })

/-- The scope of a port (R293). -/
def Port.scope (p : Port) : Scope := if p.syssc then .sys else .part

/-- SIGNAL (R265): to the control cores' mailbox or to a port's wake register. -/
def execSignal (o : NOp) (s : State) : Out :=
  let m := s.me.execSet o.g
  .next (s.checked (.signal o) m (fun s =>
    if m = 0#32 then s.finish o.e none [] []
    else
      let w := s.me
      let g := s.gangOf w
      let ck := s.ckOf w
      let t := (s.srcW o.s0 0).toNat
      let x := s.srcW o.s1 0
      let mbox := t / 2 ^ 31 = 1
      let num := t % 65536
      let k := portKey ck num
      let p := s.port k
      if t / 65536 % 2 ^ 15 != 0 then s.raise cPORT_INVALID 0#32 (portInfo 1 num) m
      else if !mbox && !p.valid then s.raise cPORT_INVALID 0#32 (portInfo 2 num) m
      else if !mbox && p.quar then s.raise cPORT_INVALID 0#32 (portInfo 3 num) m
      else if (if mbox then !w.isSup && !(s.ctx ck).mboxUser else !p.sigen) then
        s.raise cSIGNAL_DENIED 0#32 (BitVec.ofNat 32 num) m
      else if mbox then
        if s.caps.mailbox ≤ (s.part g.part).mailbox.length || s.olderRejected kENGINE then s.reject kENGINE
        else s.performs o.e (fun s =>
          let s := s.orderWrite .rel .part .scr false
          let (n, s) := s.seqNext g.part
          (s.updPart g.part (fun p => { p with mailbox := p.mailbox ++ [{ ctx := g.ctx, warp := w.wid, x := x, seq := n }] })).finish o.e none [] [])
      else if !p.resident && (1024 ≤ s.missCount p.home || s.olderRejected kENGINE) then s.reject kENGINE
      else s.performs o.e (fun s =>
        let s := s.orderWrite .rel p.scope .scr false
        let s := if p.resident then s.wakePort ck num w.senderId x
          else if x = 0#32 then s
          else s.updPort k (fun p => { p with buffered := p.buffered ++ [{ kind := 8, sender := w.senderId, payload := [x] }] })
        s.finish o.e none [] [])))

end Sys2Proof.Machine
end

