-- ==== Sys2Proof/Machine/Heap.lean ====
section
/-! DEFINITION. The gain heap instructions and the heap unit's events (R324 to R331). -/
set_option autoImplicit false

namespace Sys2Proof.Machine

/-! ### The checks of R325 -/

/-- A queued operation's effect on its heap alone. -/
def Heap.after (h : Heap) (o : HeapOp) : Heap :=
  let o := h.opened o
  let h := { h with parked := h.parked.filter (· != o.warp || o.kind != .pop) }
  let ids := if o.kind == .retire then (h.flightOf o.gang).map (fun i => (0, i, 0#32)) else o.lanes
  let act : HeapOp := if o.kind == .retire then { o with kind := .done } else o
  ids.foldl (fun h l =>
    let r := (h.lane act l.2.1 l.2.2).heap
    { r with termd := r.terminated }) h

/-- The heap as it stands once the operations in its unit's queue have acted: what the next operation to enter meets (R321). (DEDUCED, log 47: unsafe.) -/
def State.heapView (s : State) (hk : Nat) : Heap :=
  let h := s.heaps.get hk
  (s.heapQ.get h.home).foldl (fun h o => if o.heap != hk then h else h.after o) h

/-- Check 1: a heap number above 15, or a heap that is not created. -/
def State.heapReason (s : State) (ck n : Nat) : Option Nat :=
  if 16 ≤ n then some 1 else if !(s.heaps.get (heapKey ck n)).valid then some 2 else none

/-- Check 2 in one lane: the flags of an id and a gain or delta, none where the lane acts. -/
def heapLaneFlags (k : HeapOpKind) (id g : Nat) : Nat :=
  let out := if k == .put || k == .add || k == .done then (if 2 ^ 20 ≤ id then fCONV_RANGE else 0) else 0
  let bad := match k with
    | .put => g % 2 ^ 31 != 0 && gMax.toNat < g
    | .add => 0x7F800000 ≤ g % 2 ^ 31
    | _ => false
  out ||| (if bad then fINVALID else 0)

/-- The parked poppers that go before a HEAPPOP of warp `u`: a restarted one has its own entry, and once the heap has terminated
nothing is reserved (R328). (DEDUCED, log 47: unsafe.) -/
def State.popsBefore (s : State) (u hk : Nat) (view : Heap) : List Nat :=
  if (s.warp u).tryHeap == some hk || view.termd then [] else view.parked.filter (· != u)

/-- Park the executing HEAPPOP.w behind the poppers that wait already; one that restarted keeps its place (R328). -/
def State.parkPopper (s : State) (hk : Nat) : State :=
  s.orArith (fun s =>
    let u := s.actor
    let s := if s.me.tryHeap == some hk then s else s.unpark u
    let s := if (s.heaps.get hk).parked.contains u then s
      else { s with heaps := s.heaps.upd hk (fun h => { h with parked := h.parked ++ [u] }) }
    s.updMe (fun w => { w.abandon with wait := .popper hk, tryHeap := some hk }))

/-! ### The unit (R321, R326, R327) -/

/-- The lanes of one instruction act one after the other: the state and the pair of each lane. -/
def State.heapLanes (s : State) (o : HeapOp) : List (Nat × Nat × Word) → State × List (Nat × Word × Word)
  | [] => (s, [])
  | l :: rest =>
    let h := s.heaps.get o.heap
    let r := h.lane o l.2.1 l.2.2
    let pair := if o.kind == .sum then h.sumPair else (r.id, r.gain)
    let x := (s.heapAfter o.heap r).heapLanes o rest
    (x.1, (l.1, pair) :: x.2)

/-- The oldest instruction of a unit's queue that can acts; that takes a draw (R237). HEAPPOP, HEAPSUM and HEAPDRAIN are acquires: their
cluster's generation advances (R230), and their results go to the warp's reply, and to a replay gang's log (R374). -/
def State.heapApply (s : State) (sec : Nat) : State :=
  match s.heapPick [] (s.heapQ.get sec) with
  | none => s
  | some o =>
    let s := { s with heapQ := s.heapQ.set sec ((s.heapQ.get sec).erase o) }
    let o := (s.heaps.get o.heap).opened o
    if !(s.heaps.get o.heap).valid then s
    else
      let s := (s.seqNext (o.heap / 1024)).2
      if o.kind == .retire then s.heapGangDone o.heap o.gang
      else
      let s := if o.kind == .pop then { s with heaps := s.heaps.upd o.heap (fun h => { h with parked := h.parked.filter (· != o.warp) }) } else s
      let x := s.heapLanes o o.lanes
      let s := x.1
      if o.kind == .pop || o.kind == .drain || o.kind == .sum then
        let at_ (l : Nat) : Word × Word := ((x.2.find? (fun p => o.kind == .sum || p.1 == l)).map (·.2)).getD (0#32, 0#32)
        let s := (s.bumpGen (quadCluster (s.warp o.warp).quad)).logRead o.warp (Mask.ofFn (fun l => x.2.any (fun p => p.1 == l)))
          (x.2.flatMap (fun p => natBytes 4 p.2.1.toNat ++ natBytes 4 p.2.2.toNat))
        s.reach o.warp o.reply (fun r => { r with vals := [Lanes.ofFn (fun l => (at_ l).1), Lanes.ofFn (fun l => (at_ l).2)] })
      else s

/-- May an instruction of a unit's queue act? Not while a termination message of the unit waits (R295). -/
def State.heapDue (s : State) (sec : Nat) : Bool := (s.heapPick [] (s.heapQ.get sec)).isSome && !s.heapHeld sec

/-- HEAP_UNIT_APPLY (R321, R326). -/
def execHeapUnitApply (sec : Nat) (s : State) : Out := .next (if s.heapDue sec then s.heapApply sec else s)

/-- The oldest parked popper that restarts: an entry is queued beyond the reserved ones, or the heap has terminated (R328). -/
def State.popperDue (s : State) (hk : Nat) : Option Nat :=
  let h := s.heaps.get hk
  let waiting := h.parked.filter (fun u => (s.warp u).wait == .popper hk && s.running (s.warp u) && s.waitsEnd (s.warp u).gang)
  if h.termd || h.parked.length - (h.parked.filter (fun u => (s.warp u).wait == .popper hk)).length < h.count then waiting.head? else none

/-- HEAP_POPPER_WAKE (R328): its step starts again, its place among the poppers kept. -/
def execHeapPopperWake (ctx heap : Nat) (s : State) : Out :=
  .next (match s.popperDue (heapKey ctx heap) with
    | none => s
    | some u => (s.logWake u []).updWarp u (fun w => { w with wait := .ready }))

/-! ### The instructions -/

/-- The reply that a heap instruction expects, by its destination. -/
def heapReply (k : HeapOpKind) (o : NOp) (m : Mask) (clock : Nat) : Reply :=
  let n := if o.v then 0 else 2
  { vec := k != .sum, base := o.d.toNat, n := n, lanes := if k == .sum then Mask.full else m, engine := true, at_ := clock }

/-- A heap instruction has passed its checks: it enters its unit's queue, a release for what adds to the heap (R235), and a restarted
popper keeps its reservation until its pop acts (R328). -/
def State.heapEnter (s : State) (o : NOp) (k : HeapOpKind) (m : Mask) (hk : Nat) (lanes : List (Nat × Nat × Word)) (behind : List Nat) (wt : Bool) : State :=
  let u := s.actor
  let sec := (s.heaps.get hk).home
  let res := k == .pop || k == .drain || k == .sum
  let s := (if res then s.fenced u else s.orderWrite .rel .part .scr false).updMe (fun w => { w with tryHeap := none })
  let (rid, s) : Nat × State :=
    if res then
      let x := s.fresh
      (x.1, x.2.updMe (fun w => { w with replies := w.replies.set x.1 (heapReply k o m s.clock) }))
    else (0, s)
  let job : HeapOp := { kind := k, warp := u, gang := s.me.gang, heap := hk, lanes := lanes, reply := rid, behind := behind, wt := wt }
  let s := if lanes.isEmpty then s else { s with heapQ := s.heapQ.set sec (s.heapQ.get sec ++ [job]) }
  if res then s.finish o.e (some (s.freeOut 0#32 [])) [.reply rid] [] else s.finish o.e none [] []

/-- A heap instruction: the checks of R325 in their order, its own conditions among them, then its perform. `wt` is HEAPPOP.w. (DEDUCED, log
94: unsafe.) -/
def State.heapOp (s : State) (i : Instr) (o : NOp) (k : HeapOpKind) (wt : Bool) : State :=
  let m := s.me.execSet o.g
  s.checked i m (fun s =>
    if m = 0#32 then s.finish o.e (if k == .pop || k == .drain || k == .sum then some (s.freeOut 0#32 []) else none) [] []
    else
      let u := s.actor
      let ck := s.ckOf s.me
      let n := (s.srcW o.s0 0).toNat
      let hk := heapKey ck n
      match s.heapReason ck n with
      | some r => s.raise cSPACE_LIMIT (BitVec.ofNat 32 n) (BitVec.ofNat 32 r) s.me.step.issue
      | none =>
        let id (l : Nat) : Nat := s.src .n32 o.s1 l
        let gain (l : Nat) : Nat := s.src .f32 o.s2 l
        let fl (l : Nat) : Nat := heapLaneFlags k (id l) (gain l)
        let conds := condsOf s.me.step.idx m fl
        let t := s.updMe (fun w => { w with step := { w.step with conds := w.step.conds ++ conds } })
        let acts := m.lanes.filter (fun l => fl l == 0)
        let lanes : List (Nat × Nat × Word) :=
          if k == .sum then [(0, 0, 0#32)] else acts.map (fun l => (l, id l, BitVec.ofNat 32 (gain l)))
        let view := s.heapView hk
        let behind := if k == .pop then s.popsBefore u hk view else []
        let sec := (s.heaps.get hk).home
        if conds.any (fun c => s.me.sp.fpctl.getLsbD c.bit) then t.arithTrap u
        else if wt && view.count ≤ behind.length && !view.termd then s.parkPopper hk
        else if s.caps.heapQ ≤ (s.heapQ.get sec).length || s.olderRejected kENGINE then s.reject kENGINE
        else t.performs o.e (fun s => s.heapEnter o k m hk lanes behind wt))

/-- HEAPPUT (R326). -/
def execHeapput (o : NOp) (s : State) : Out := .next (s.heapOp (.heapput o) o .put false)

/-- HEAPPOP (R326, R328): `w` is W, the waiting form. -/
def execHeappop (w : Bool) (o : NOp) (s : State) : Out := .next (s.heapOp (.heappop w o) o .pop w)

/-- HEAPDONE (R326). -/
def execHeapdone (o : NOp) (s : State) : Out := .next (s.heapOp (.heapdone o) o .done false)

/-- GAINADD (R326). -/
def execGainadd (o : NOp) (s : State) : Out := .next (s.heapOp (.gainadd o) o .add false)

/-- HEAPSUM (R327). -/
def execHeapsum (o : NOp) (s : State) : Out := .next (s.heapOp (.heapsum o) o .sum false)

/-- HEAPDRAIN (R326). -/
def execHeapdrain (o : NOp) (s : State) : Out := .next (s.heapOp (.heapdrain o) o .drain false)

end Sys2Proof.Machine
end

