-- ==== Sys2Proof/Machine/Placement.lean ====
section
/-! DEFINITION. Launch descriptors, what fits where, placing gangs, standing reservations (R15, R16, R21, R146, R275 to R280,
R288). -/
set_option autoImplicit false

namespace Sys2Proof.Machine

/-! ### Descriptors (R275) -/

def dsWord (d : List Word) (i : Nat) : Nat := (d.getD i 0#32).toNat
def dsCtrl (d : List Word) : Nat := dsWord d 0
def dsValid (d : List Word) : Bool := dsCtrl d / 2 ^ 31 == 1
def dsPrio (d : List Word) : Nat := dsCtrl d / 2 ^ 24 % 16
/-- Progress class: 0 concurrent, 1 parallel, 2 weak. -/
def dsClass (d : List Word) : Nat := dsCtrl d / 2 ^ 22 % 4
def dsReplay (d : List Word) : Bool := dsCtrl d / 2 ^ 21 % 2 == 1
def dsRsv (d : List Word) : Bool := dsCtrl d / 2 ^ 20 % 2 == 1
def dsCores (d : List Word) : Nat := 2 ^ (dsCtrl d / 2 ^ 16 % 4)
def dsRoles (d : List Word) : Nat := dsCtrl d % 4 + 1
def dsGangs (d : List Word) : Nat := dsWord d 1
/-- GANGSIZE (R171). -/
def dsGangMem (d : List Word) : Nat := if dsWord d 2 = 0 then 0x10000 else dsWord d 2
def dsRefPort (d : List Word) : Nat := dsWord d 4
def dsConst (d : List Word) : Nat := dsWord d 5
def dsRgangs (d : List Word) : Nat := dsWord d 6
def roEntry (d : List Word) (r : Nat) : Nat := dsWord d (8 + 4 * r)
def roWarps (d : List Word) (r : Nat) : Nat := dsWord d (9 + 4 * r) % 65536
def roVregs (d : List Word) (r : Nat) : Nat := 8 * (dsWord d (9 + 4 * r) / 65536 % 256)
def roSregs (d : List Word) (r : Nat) : Nat := 32 * (dsWord d (9 + 4 * r) / 2 ^ 24)
def roSlot (d : List Word) (r : Nat) : Nat := dsWord d (10 + 4 * r) % 256
def roSpill (d : List Word) (r : Nat) : Nat := 128 * (dsWord d (10 + 4 * r) / 65536)

/-- Physical scalars of a budget (R21). -/
def physScalars (b : Nat) : Nat := if b = 512 then 512 else b + 32

/-- A role's fields are in range. -/
def roOk (d : List Word) (r : Nat) : Bool :=
  let slot := roSlot d r
  1 ≤ roWarps d r && roWarps d r ≤ 2048 && 8 ≤ roVregs d r && roVregs d r ≤ 256 && 32 ≤ roSregs d r && roSregs d r ≤ 512
  && slot ≤ 15 && dsWord d (10 + 4 * r) / 256 % 256 == 0 && roSpill d r ≤ 65536 && dsWord d (11 + 4 * r) == 0
  && (if slot = 0 then roEntry d r % 8 == 0 else roEntry d r % 2 == 0)

/-- Roles of the gang's warps by WARPID (R276). -/
def warpRoles (d : List Word) : List Nat := (List.range (dsRoles d)).flatMap (fun r => List.replicate (roWarps d r) r)

/-- Check 1 of R277. -/
def dsFormOk (d : List Word) : Bool :=
  let c := dsCtrl d
  dsValid d && c / 2 ^ 28 % 8 == 0 && c / 2 ^ 18 % 4 == 0 && c / 4 % 2 ^ 14 == 0 && dsClass d != 3
  && dsWord d 7 == 0 && (List.range 8).all (fun i => dsWord d (24 + i) == 0)
  && (List.range (dsRoles d)).all (roOk d)
  && (List.range (16 - 4 * dsRoles d)).all (fun i => dsWord d (8 + 4 * dsRoles d + i) == 0)
  && (dsRgangs d == 0 || (dsGangs d == 0 && dsRsv d)) && dsRgangs d ≤ 65536

/-! ### Loads and limits (R15, R276) -/

/-- Warps, vector registers and scalars. -/
structure Load where
  warps : Nat := 0
  vregs : Nat := 0
  sregs : Nat := 0
  deriving DecidableEq, Repr, Inhabited

def Load.add (a b : Load) : Load := { warps := a.warps + b.warps, vregs := a.vregs + b.vregs, sregs := a.sregs + b.sregs }
def Load.ok (a : Load) : Bool := a.warps ≤ 64 && a.vregs ≤ 2048 && a.sregs ≤ 16384

/-- The load on each gang-relative quadrant: WARPID w goes to quadrant w mod 4C (R146, R276). -/
def gangLoad (d : List Word) : List Load :=
  let n := 4 * dsCores d
  let roles := warpRoles d
  (List.range n).map (fun q =>
    ((roles.zipIdx).filter (fun x => x.2 % n == q)).foldl (fun a x =>
      a.add { warps := 1, vregs := roVregs d x.1, sregs := physScalars (roSregs d x.1) }) {})

/-- `k` elements of a list in the order that a number chooses. -/
def permOf : Nat → List Nat → Nat → List Nat × Nat
  | 0, _, n => ([], n)
  | k + 1, l, n =>
    let i := n % max l.length 1
    let r := permOf k (l.eraseIdx i) (n / max l.length 1)
    (l.getD i 0 :: r.1, r.2)

/-- The assignments of R146 that a number chooses for a gang on `C` cores: of its cores to those of the group, and of the quadrants of
each. -/
def assignOf (C n : Nat) : List Nat :=
  let cs := permOf C (List.range C) n
  (cs.1.foldl (fun (x : List Nat × Nat) c => let q := permOf 4 (List.range 4) x.2; (x.1 ++ q.1.map (4 * c + ·), q.2)) ([], cs.2)).1

/-- The loads on the physical quadrants of a group, by the place of each gang-relative quadrant. -/
def physLoads (loads : List Load) (assign : List Nat) : List Load :=
  (List.range loads.length).map (fun q => loads.getD (((List.range loads.length).find? (fun g => assign.getD g g == q)).getD q) {})

/-! ### Pages (R397, R398, R401) -/

/-- Give a page of PPA / 65536 to an owner (none: free), wiped (R401). -/
def State.givePage (s : State) (p page : Nat) (owner : Option Nat) : State :=
  let loc := ppaLoc p (65536 * page)
  let s := s.wipeRange loc 65536
  { s with owners := s.owners.set (loc / 65536) (match owner with | none => 0 | some c => c + 1) }

/-- The lowest `n` free pages of a partition from page `k`, by PPA / 65536; `fuel` pages are looked at. -/
def State.freePages (s : State) (p : Nat) (ok : Nat → Bool) : Nat → Nat → Nat → List Nat
  | 0, _, _ => []
  | _, _, 0 => []
  | fuel + 1, k, n + 1 =>
    if s.owner p (65536 * k) == 0x7F && ok k then k :: s.freePages p ok fuel (k + 1) n else s.freePages p ok fuel (k + 1) (n + 1)

/-- Free HBM pages. -/
def State.freeHbm (s : State) (p n : Nat) : List Nat := s.freePages p (fun _ => true) (2 ^ 20 * (s.part p).nsec) 0 n

/-- Give pages to an owner. -/
def State.takePages (s : State) (p owner : Nat) (pages : List Nat) : State :=
  pages.foldl (fun s k => { s with owners := s.owners.set (ppaLoc p (65536 * k) / 65536) (owner + 1) }) s

/-- Bytes of a gang's saved image: its gang memory and its warps' registers (R351). (DESIGN CHOICE, log 95: unsafe.) -/
def State.imageBytes (s : State) (g : Nat) : Nat :=
  (s.gang g).warps.foldl (fun a u => a + 128 * (s.warp u).vbudget + 4 * (s.warp u).sbudget) (s.gang g).gangSize

/-- A saved gang's image takes pages of the supervisor (R398), as far as there are free ones. (DESIGN CHOICE, log 95: unsafe.) -/
def State.takeImage (s : State) (g : Nat) : State :=
  let p := (s.gang g).part
  let pages := s.freeHbm p ((s.imageBytes g + 65535) / 65536)
  (s.takePages p 0x40 pages).updGang g (fun x => { x with image := pages })

/-- The image of a gang is no longer needed: its pages are free (R401). -/
def State.dropImage (s : State) (g : Nat) : State :=
  let x := s.gang g
  if x.image.isEmpty then s else (x.image.foldl (fun s k => s.givePage x.part k none) s).updGang g (fun y => { y with image := [] })

/-- What a gang, running or reserved, occupies: its first core, its loads, its gang memory. -/
structure Occ where
  core : Nat
  loads : List Load
  gmem : Nat
  deriving DecidableEq, Repr, Inhabited

/-- The load that occupants put on physical quadrant `q`. -/
def quadLoad (occ : List Occ) (q : Nat) : Load :=
  occ.foldl (fun a o => if 4 * o.core ≤ q && q < 4 * o.core + o.loads.length then a.add (o.loads.getD (q - 4 * o.core) {}) else a) {}

/-- The occupants of a cluster. -/
def clusterOcc (occ : List Occ) (c : Nat) : List Occ := occ.filter (fun o => o.core / 8 == c)

/-- Does one more gang fit at a core group (R277)? -/
def fitsAt (occ : List Occ) (d : List Word) (loads : List Load) (core : Nat) : Bool :=
  let here := clusterOcc occ (core / 8)
  (loads.zipIdx).all (fun x => ((quadLoad here (4 * core + x.2)).add x.1).ok)
  && here.foldl (fun a o => a + o.gmem) 0 + dsGangMem d ≤ 0x400000 && here.length < 64

/-- The warp slots left free on a group once the gang's loads are added (R279). -/
def slotsLeft (occ : List Occ) (loads : List Load) (core : Nat) : Nat :=
  let here := clusterOcc occ (core / 8)
  (loads.zipIdx).foldl (fun a x => a + (64 - ((quadLoad here (4 * core + x.2)).warps + x.1.warps))) 0

/-- How a gang stands at a core group: by the assignment that is asked for, else by its own numbers; none if neither fits. (DESIGN CHOICE, log 88: unsafe.) -/
def standsAt (occ : List Occ) (d : List Word) (asked : List Nat) (core : Nat) : Option (List Nat) :=
  [asked, []].find? (fun a => fitsAt occ d (physLoads (gangLoad d) a) core)

/-- The place that R279 gives one gang: the most free slots, then the lowest cluster and group. (DEDUCED, log 48: unsafe.) -/
def placeOne (base nsec : Nat) (occ : List Occ) (d : List Word) (asked : List Nat) : Option Place :=
  let loads := gangLoad d
  let C := dsCores d
  let cands := (List.range (32 * nsec / C)).map (fun j => 32 * base + C * j)
  let best := (cands.filter (fun core => (standsAt occ d asked core).isSome)).foldl (fun best core => match best with
    | none => some core
    | some b => if slotsLeft occ loads b < slotsLeft occ loads core then some core else some b) none
  best.map (fun core => { core := core, assign := (standsAt occ d asked core).getD [] })

/-- What a gang of a descriptor occupies at a place. -/
def occOf (d : List Word) (x : Place) : Occ := { core := x.core, loads := physLoads (gangLoad d) x.assign, gmem := dsGangMem d }

/-- Places for `n` gangs together, in GANGID order; none if they do not all fit. `asked` numbers their assignments. -/
def placeMany (base nsec : Nat) (d : List Word) : Nat → List Nat → List Occ → Option (List Place)
  | 0, _, _ => some []
  | n + 1, asked, occ =>
    match placeOne base nsec occ d (assignOf (dsCores d) (asked.headD 0)) with
    | none => none
    | some x =>
      match placeMany base nsec d n asked.tail (occOf d x :: occ) with
      | none => none
      | some r => some (x :: r)

/-! ### What is occupied -/

/-- The resident gangs of a partition as occupants, those of `drop` left out but where their places stay reserved without them (R288). -/
def State.residentOcc (s : State) (p : Nat) (drop : List Nat) : List Occ :=
  (s.gangs.filter (fun e => e.2.part == p && (e.2.place == .resident || e.2.place == .stopping)
    && !(drop.contains e.1 && !(e.2.reserved && !(s.launch e.2.launch).giveBack)))).map (fun e =>
    occOf (s.launch e.2.launch).words { core := e.2.coreBase, assign := e.2.assign })

/-- Does a resident gang of the launch stand at its reserved place number `k`? -/
def State.placeHeld (s : State) (ln k : Nat) : Bool :=
  s.gangs.any (fun e => e.2.launch == ln && e.2.gangId == k && e.2.reserved && (e.2.place == .resident || e.2.place == .stopping))

/-- The reserved places that a launch holds and no gang occupies. -/
def State.placesEmpty (s : State) (ln : Nat) : List RsvPlace :=
  ((s.launch ln).places.zipIdx).filterMap (fun x => if s.placeHeld ln x.2 then none else x.1)

/-- The reserved places that stand empty: those of armed patterns, and those that launches hold (R288). -/
def State.reservedOcc (s : State) (p : Nat) : List Occ :=
  let occ (d : List Word) (x : RsvPlace) : Occ := occOf d x.place
  ((s.pats.filter (fun e => e.1 / 4096 / 64 == p && e.2.taken.isNone)).flatMap (fun e =>
    e.2.places.map (occ ((s.ctx (e.1 / 4096)).descs.get e.2.desc))))
  ++ ((s.launches.filter (fun e => e.2.live && e.2.part == p)).flatMap (fun e => (s.placesEmpty e.1).map (occ e.2.words)))

/-- Every reserved place of the partition, occupied or not. -/
def State.standingOcc (s : State) (p : Nat) (own : Option Nat) : List Occ :=
  (s.pats.filter (fun e => e.1 / 4096 / 64 == p && some e.1 != own)).flatMap (fun e =>
    e.2.places.map (fun x => occOf ((s.ctx (e.1 / 4096)).descs.get e.2.desc) x.place))

/-! ### Spill slots (R280) -/

/-- Spill slots that reservations of the context hold apart. -/
def State.rsvSlotsOf (s : State) (ck : Nat) : List Nat :=
  ((s.pats.filter (fun e => e.1 / 4096 == ck)).flatMap (fun e => e.2.places.flatMap (·.slots)))
  ++ ((s.launches.filter (fun e => e.2.live && ctxKey e.2.part e.2.ctx == ck)).flatMap (fun e => e.2.places.flatMap (fun x => (x.map (·.slots)).getD [])))

/-- The lowest `n` spill slots that no warp uses and none of `apart` names. (DESIGN CHOICE, log 34: unsafe.) -/
def freeSlots (used : Map Bool) (apart : List Nat) : Nat → Nat → Nat → List Nat
  | 0, _, _ => []
  | _, _, 0 => []
  | fuel + 1, k, n + 1 =>
    if used.get k || apart.contains k then freeSlots used apart fuel (k + 1) (n + 1)
    else k :: freeSlots used apart fuel (k + 1) n

/-- The lowest `n` free slots of a context, or fewer. -/
def State.slotsFree (s : State) (ck n : Nat) : List Nat := freeSlots (s.ctx ck).spillUsed (s.rsvSlotsOf ck) 65536 0 n

/-! ### Reservations (R288) -/

/-- Make the reservation of a pattern's launch: its places and its spill slots; none if it cannot be made now. (DESIGN CHOICE, log 34: unsafe.) -/
def State.reserve (s : State) (pk : Nat) : Option (List RsvPlace) :=
  let ck := pk / 4096
  let p := ck / 64
  let x := s.part p
  let d := (s.ctx ck).descs.get (s.pat pk).desc
  let n := if dsGangs d = 0 then dsRgangs d else dsGangs d
  match placeMany x.base x.nsec d n s.placings (s.residentOcc p [] ++ s.reservedOcc p) with
  | none => none
  | some ps =>
    let per := (warpRoles d).length
    let slots := s.slotsFree ck (n * per)
    if slots.length < n * per then none
    else some ((ps.zipIdx).map (fun c => { place := c.1, slots := (slots.drop (per * c.2)).take per }))

/-- Launches of a pattern that have yet to take its reservation: they fired while another held it (R288). -/
def State.claimants (s : State) (pk : Nat) : List Nat :=
  (s.launches.filter (fun e => e.2.live && e.2.rsv && e.2.started == 0 && e.2.places.isEmpty && patKey (ctxKey e.2.part e.2.ctx) e.2.pat == pk)).map (·.1)

/-- A launch takes the standing reservation of its pattern (R288): the places of its own gangs and the rest, which stay unused; the last
launch of a disarmed pattern takes its own alone. -/
def State.takePlaces (s : State) (ln : Nat) : State :=
  let l := s.launch ln
  let pk := patKey (ctxKey l.part l.ctx) l.pat
  let x := s.pat pk
  if !l.rsv || l.started != 0 || !x.rsv || x.taken.isSome || !l.places.isEmpty then s
  else
    let n := min l.gangs x.places.length
    if x.armed || (s.claimants pk).any (· != ln) then (s.updLaunch ln (fun l => { l with places := x.places.map some })).updPat pk (fun x => { x with taken := some ln })
    else (s.updLaunch ln (fun l => { l with places := (x.places.take n).map some, giveBack := true })).updPat pk (fun x => { x with rsv := false, places := [], closing := false })

/-! ### Refusals (R277) -/

/-- The constant image's location, page by page, if it translates for reading. (DEDUCED, log 35: unsafe.) -/
def State.constImage (s : State) (p c : Nat) (d : List Word) : Option (List Nat) :=
  (List.range 512).foldr (fun i acc => match acc, s.translateAt controlUnit p c .scr .read false (dsConst d + 4 * i) with
    | some l, .ok loc _ => some (loc :: l)
    | _, _ => none) (some [])

/-- The reason with which a launch of `n` gangs by pattern `pk` is refused. (DEDUCED, log 35: unsafe.) -/
def State.admissionReason (s : State) (p c : Nat) (d : List Word) (n pk : Nat) : Option Nat :=
  let x := s.part p
  let rsv := s.standingOcc p (some pk)
  let loads := gangLoad d
  let total := (warpRoles d).length
  if !dsFormOk d then some 1
  else if n = 0 || 65536 < n then some 5
  else if dsGangMem d % 0x10000 != 0 || 0x400000 < dsGangMem d || 256 * dsCores d < total then some 3
  else if !loads.all Load.ok then some 2
  else if dsConst d % 128 != 0 || (s.constImage p c d).isNone then some 7
  else if dsClass d = 0 then
    (if (placeMany x.base x.nsec d n [] rsv).isNone || 65536 < n * total then some 4 else none)
  else if (placeOne x.base x.nsec rsv d []).isNone then some 6 else none

/-! ### Starting a gang (R23, R73, R171, R279, R280) -/

/-- Does a warp that starts under a slot find it empty or another context's (R73)? -/
def State.slotAway (s : State) (p c slot : Nat) : Bool :=
  slot != 0 && s.slotForeign p c slot

/-- The lanes present in a warp of a keyway slot (R73). -/
def State.presentLanes (s : State) (p c slot : Nat) : Mask :=
  let ks := (s.part p).slots.get slot
  if slot = 0 || s.slotAway p c slot then Mask.full
  else Mask.ofFn (fun l => l < bytesNat ((ks.image.drop 7).take 1))

/-- EMUVEC at warp start: from the header of the role's slot, with the base of its object (R33, R394). -/
def State.startEmuvec (s : State) (p c slot : Nat) : Word :=
  let ks := (s.part p).slots.get slot
  if slot = 0 || s.slotAway p c slot then 0#32
  else BitVec.ofNat 32 (bytesNat ((ks.image.drop 0x0C).take 4)) + ks.base

/-- Start gang `gid` of launch `ln` at a place, with its spill slots in WARPID order; `act` is the stamp of the admission act.
(DEDUCED, log 48: unsafe; DEDUCED, log 68: unsafe.) -/
def State.startGang (s : State) (act ln gid : Nat) (at_ : Place) (slots : List Nat) (reserved : Bool) : State :=
  let l := s.launch ln
  let d := l.words
  let roles := warpRoles d
  let ck := ctxKey l.part l.ctx
  let (g, s) := s.fresh
  let uids := (List.range roles.length).map (s.nextUid + ·)
  let s := { s with nextUid := s.nextUid + roles.length }
  let core := at_.core
  let gang : Gang := { place := .resident, launch := ln, gangId := gid, part := l.part, ctx := l.ctx, warps := uids, cluster := core / 8, coreBase := core, cores := dsCores d, assign := at_.assign, gangSize := dsGangMem d, admitted := act, reserved := reserved }
  let s := s.setGang g gang
  let s := s.setBytes (gangLoc g 0) (l.msgs.take 256)
  let s := (roles.zipIdx).foldl (fun s x =>
    let r := x.1
    let present := s.presentLanes l.part l.ctx (roSlot d r)
    let slot := slots.getD x.2 0
    let w : Warp := { live := true, misplaced := s.slotAway l.part l.ctx (roSlot d r), gang := g, wid := x.2, role := r, quad := gang.physQuad (x.2 % (4 * dsCores d)), present := present, vbudget := roVregs d r, sbudget := roSregs d r, sp := { kwslot := roSlot d r, emuvec := s.startEmuvec l.part l.ctx (roSlot d r), vpc := (List.range 32).map (fun k => if present.has k then BitVec.ofNat 32 (roEntry d r) else 0#32), spillbase := BitVec.ofNat 32 (0x10000 * slot), spillsize := BitVec.ofNat 32 (roSpill d r) }, spillSlot := slot, admitted := act, urgent := reserved }
    (s.setWarp (uids.getD x.2 0) w).updCtx ck (fun c => { c with spillUsed := c.spillUsed.set slot true })) s
  let s := (s.updLaunch ln (fun l => { l with started := l.started + 1 })).bumpGen (core / 8)
  (if l.haltNew then s.haltGang g else s).snapshot g

end Sys2Proof.Machine
end

