-- ==== Sys2Proof/Machine/Join.lean ====
section
/-! DEFINITION. The port, pattern and timer instructions, and the join units' events but the firing (R294, R295, R308 to R315). -/
set_option autoImplicit false

namespace Sys2Proof.Machine

/-! ### Residency (R294, R295) -/

/-- Is a port pinned: by its own bit or by an armed pattern? -/
def State.pinned (s : State) (k : Nat) : Bool :=
  (s.port k).pin || s.pats.any (fun e => e.2.armed && e.1 / 4096 == k / 65536 && e.2.ports.contains (k % 65536))

/-- The resident ports of a section. -/
def State.residents (s : State) (sec : Nat) : List (Nat × Port) := s.ports.filter (fun e => e.2.resident && e.2.home == sec)

/-- May a resident port be evicted (R294)? -/
def State.evictable (s : State) (keep : List Nat) (k : Nat) : Bool :=
  let x := s.port k
  !s.pinned k && x.msgs.isEmpty && x.wake == 0#32 && x.parked.isEmpty && x.heldSlots == 0 && !keep.contains k

/-- Is there room in a section for one more port of some depth? -/
def State.roomFor (s : State) (sec depth : Nat) : Bool :=
  (s.residents sec).length < 2048 && (s.residents sec).foldl (fun a e => a + e.2.depth) 0 + depth ≤ 65536

/-- Evict the least recently used candidates until a port has room; `fuel` of them. -/
def State.makeRoom (s : State) (sec depth : Nat) (keep : List Nat) : Nat → Option State
  | 0 => if s.roomFor sec depth then some s else none
  | fuel + 1 =>
    if s.roomFor sec depth then some s
    else
      match ((s.residents sec).filter (fun e => s.evictable keep e.1)).foldl (fun best e => match best with
          | none => some (e.1, e.2.lastUsed)
          | some (b, t) => if e.2.lastUsed < t then some (e.1, e.2.lastUsed) else some (b, t)) none with
      | none => none
      | some (k, _) => (s.updPort k (fun x => { x with resident := false })).makeRoom sec depth keep fuel

/-- One buffered arrival at a port that has become resident (R295). -/
def State.applyBuffered (s : State) (k : Nat) (m : Message) : State :=
  let ck := k / 65536
  if m.kind = 8 then s.wakePort ck (k % 65536) m.sender (m.payload.headD 0#32)
  else s.arrive (ck / 64) (ck % 64) (k % 65536) m

/-- Make a port resident, and apply its buffered arrivals in order. -/
def State.swapIn (s : State) (k : Nat) (keep : List Nat) : Option State :=
  let x := s.port k
  if x.resident then some s
  else (s.makeRoom x.home x.depth keep 2048).map (fun s =>
    x.buffered.foldl (fun s m => s.applyBuffered k m) (s.updPort k (fun x => { x with resident := true, lastUsed := s.clock, buffered := [] })))

/-- Make every port of a list resident, none evicted for another. -/
def State.swapAll (s : State) (keep : List Nat) : List Nat → Option State
  | [] => some s
  | k :: r => match s.swapIn k keep with
    | none => none
    | some s => s.swapAll keep r

/-- PORT_SWAP_IN (R295): a port with a miss becomes resident, and its buffered arrivals are applied in order. -/
def execPortSwapIn (ctx port : Nat) (s : State) : Out :=
  let k := portKey ctx port
  let x := s.port k
  .next (
    if !x.valid || x.resident || (x.buffered.isEmpty && x.parked.isEmpty) then s
    else (s.swapIn k []).getD s)

/-- The oldest parked sender whose retry is due: its slot is there, the port that it waited for is resident, or the port is gone (R295,
R309). -/
def State.senderDue (s : State) (k : Nat) : Option Nat :=
  let x := s.port k
  (x.parked.zipIdx.find? (fun p =>
    (s.warp p.1).wait == .sender k && s.running (s.warp p.1) && s.waitsEnd (s.warp p.1).gang && (!x.valid || x.quar || (x.resident && ((s.warp p.1).tryAway || p.2 < x.free))))).map (·.1)

/-- PORT_SENDER_RETRY (R309): a parked sender's step starts again, its place in the list kept. -/
def execPortSenderRetry (ctx port : Nat) (s : State) : Out :=
  .next (match s.senderDue (portKey ctx port) with
    | none => s
    | some u => (s.logWake u []).updWarp u (fun w => { w with wait := .ready }))

/-- Park the executing step on a port, `away` because it is not resident (R309). -/
def State.parkSender (s : State) (k : Nat) (away : Bool) : State :=
  s.orArith (fun s =>
    let u := s.actor
    let s := if s.me.tryPort == some k then s else s.unpark u
    let s := if (s.port k).parked.contains u then s else s.updPort k (fun x => { x with parked := x.parked ++ [u] })
    s.updMe (fun w => { w.abandon with wait := .sender k, tryPort := some k, tryAway := away }))

/-! ### SEND and SENDMEM (R309 to R312) -/

/-- The value of block scalar `k`. -/
def XOp.blk (w : Warp) (o : XOp) (k : Nat) : Word := w.sword (Src.num o.s0 + k)

/-- Check 1 and 2 on a port number (R309); `q` whether a quarantined port fails. -/
def State.portReason (s : State) (ck n : Nat) (q : Bool) : Option Nat :=
  let x := s.port (portKey ck n)
  if 65536 ≤ n then some 1 else if !x.valid then some 2 else if q && x.quar then some 3 else none

/-- The queue that takes the commands for the timers of a partition (R309); that of a section's join unit has the section's number. -/
def timerUnit (p : Nat) : Nat := 8 + p

/-- Check 7 of R309, then `k` with the command in the unit's queue. (DESIGN CHOICE, log 24: safe.) -/
def State.viaUnit (s : State) (unit : Nat) (e : Bool) (k : State → State) : State :=
  if s.caps.unitQ ≤ s.unitQ.get unit || s.olderRejected kENGINE then s.reject kENGINE
  else s.performs e (fun s => k { s with unitQ := s.unitQ.upd unit (· + 1) })

/-- A unit takes a command off its queue. -/
def State.unitTake (s : State) (unit : Nat) : State := { s with unitQ := s.unitQ.upd unit (· - 1) }

/-- Checks 5 to 7 of R309, then `k`. -/
def State.slotFor (s : State) (ck n : Nat) (f : Bool) (m : Mask) (e : Bool) (k : State → State) : State :=
  let pk := portKey ck n
  let x := s.port pk
  if !x.resident then s.parkSender pk true
  else if x.fullFor s.actor then
    (if f then s.raise cPORT_FULL 0#32 (portInfo 0 n) m else s.parkSender pk false)
  else s.viaUnit x.home e k

/-- SEND (R311). -/
def execSend (o : XOp) (s : State) : Out :=
  let m := s.me.step.issue
  .next (s.checked (.send o) m (fun s =>
    let w := s.me
    let ck := s.ckOf w
    let n := (XOp.blk w o 0).toNat
    match s.portReason ck n true with
    | some r => s.raise cPORT_INVALID 0#32 (portInfo r n) m
    | none => s.slotFor ck n o.f m o.e (fun s =>
      let pk := portKey ck n
      let s := (s.orderWrite .rel (s.port pk).scope .scr false).unpark s.actor
      let (q, s) := s.seqNext (ck / 64)
      let msg : Message := { seq := q, sender := w.senderId, kind := 0, payload := (List.range 6).map (fun i => XOp.blk w o (1 + i)), arrived := s.phc }
      (s.updPort pk (fun x => { x with msgs := x.msgs ++ [msg], lastUsed := s.clock })).finish o.e none [] [])))

/-- The pages of a range in the scratchpad window: the first failing address with its cause (R181). -/
def State.rangeFail (s : State) (acc : Access) (a n : Nat) : Option (Nat × Nat) :=
  let w := s.me
  let g := s.gangOf w
  firstSome (fun i =>
    let va := if i = 0 then a else (a / 65536 + i) * 65536
    match s.translate g.part g.ctx .scr acc w.isSup va with
    | .cause c => some (c, va)
    | .ok _ _ => none) (List.range ((a + n - 1) / 65536 - a / 65536 + 1))

/-- The location of a scratchpad-window byte of a context, by translation structure `un`; none where it does not translate. -/
def State.scrLoc (s : State) (un ck : Nat) (acc : Access) (sup : Bool) (va : Nat) : Option Nat :=
  match s.translateAt un (ck / 64) (ck % 64) .scr acc sup va with
  | .ok loc _ => some loc
  | .cause _ => none

/-- Is a byte of unit `k` of a SENDMEM's source poisoned? -/
def State.unitBad (s : State) (gang : Bool) (locs : List Nat) (k : Nat) : Bool :=
  ((locs.drop (16 * k)).take 16).any (fun l => if gang then s.poisonUnit.get (l / 16) else s.poisonLine.get (l / 128))

/-- SENDMEM (R312): it performs once its slot is held and its source is staged. (DEDUCED, log 33: unsafe.) -/
def execSendmem (o : XOp) (s : State) : Out :=
  let m := s.me.step.issue
  .next (s.checked (.sendmem o) m (fun s =>
    let w := s.me
    let ck := s.ckOf w
    let n := (XOp.blk w o 0).toNat
    let src := (XOp.blk w o 1).toNat
    let dst := (XOp.blk w o 2).toNat
    let len := (XOp.blk w o 3).toNat
    let gang := o.ssp
    let fault (sp macc : Nat) (x : Nat × Nat) : State := s.raise x.1 (BitVec.ofNat 32 x.2) (memInfo sp macc 0 w.step.idx x.2) m
    match s.portReason ck n true with
    | some r => s.raise cPORT_INVALID 0#32 (portInfo r n) m
    | none =>
    if len < 16 || 4096 < len || len % 16 != 0 || src % 16 != 0 || dst % 16 != 0 then s.raise cPORT_INVALID 0#32 (portInfo 5 n) m
    else
    match (if gang then (if (s.gangOf w).gangSize < src + len then some (cSPACE_LIMIT, max src (s.gangOf w).gangSize) else none) else s.rangeFail .read src len) with
    | some x => fault (if gang then 1 else 2) 0 x
    | none =>
    match s.rangeFail .write dst len with
    | some x => fault 2 1 x
    | none => s.slotFor ck n o.f m o.e (fun s =>
      let pk := portKey ck n
      let s := (s.orderWrite .rel (s.port pk).scope .scr false).unpark s.actor
      let locs := (List.range len).map (fun i => if gang then gangLoc w.gang (src + i) else (s.scrLoc (quadCluster w.quad) ck .read w.isSup (src + i)).getD 0)
      let (id, s) := s.fresh
      let (rep, s) := s.holdScalars o.d.toNat (if o.v then 0 else 2)
      let job : SendJob :=
        { live := true, warp := s.actor, gang := w.gang, ck := ck, sup := w.isSup, cluster := quadCluster w.quad, port := n, dst := dst,
          stage := locs.map s.byte, gangSrc := gang, srcLocs := locs, bad := (List.range (len / 16)).filter (s.unitBad gang locs), user := (List.range 4).map (fun i => XOp.blk w o (4 + i)), sender := w.senderId, reply := rep }
      let s := { s with sends := s.sends.set id job }
      let s := s.updPort pk (fun x => { x with heldSlots := x.heldSlots + 1 })
      s.finish o.e (some []) [.reply rep] [])))

/-- A SENDMEM that has not completed reads one unit of its source: later than the units before it (R312). -/
def State.sendUnit (s : State) (job k : Nat) : State :=
  let j := s.sends.get job
  if !j.live || s.frozen j.gang || j.stage.length / 16 ≤ k then s
  else
    let bytes := ((j.srcLocs.drop (16 * k)).take 16).map s.byte
    let bad := j.bad.filter (· != k) ++ (if s.unitBad j.gangSrc j.srcLocs k then [k] else [])
    { s with sends := s.sends.set job { j with stage := j.stage.take (16 * k) ++ bytes ++ j.stage.drop (16 * k + 16), bad := bad } }

/-- SENDMEM_COMPLETE (R312): the whole payload is written and the message enqueued, or nothing is. (DEDUCED, log 33: unsafe.) -/
def execSendmemComplete (job : Nat) (s : State) : Out :=
  let j := s.sends.get job
  .next (
    if !j.live || s.frozen j.gang then s
    else
      let pk := portKey j.ck j.port
      let x := s.port pk
      let locs := (List.range j.stage.length).map (fun i => s.scrLoc j.cluster j.ck .write j.sup (j.dst + i))
      let target := !x.valid || x.quar || locs.any (fun l => match l with
        | none => true
        | some a => s.poisonLine.get (a / 128))
      let s := { s with sends := s.sends.erase job }.updPort pk (fun x => { x with heldSlots := x.heldSlots - 1 })
      let done (s : State) (cause : Nat) (seq : Word) (bytes : Nat) : State :=
        s.scalarsReach j.warp j.reply [BitVec.ofNat 32 bytes, BitVec.ofNat 32 (2 ^ 31 + cause * 2 ^ 16 + seq.toNat % 65536)]
      if target then done s cSEND_ERROR 0#32 0
      else if !j.bad.isEmpty then done s cPOISON 0#32 0
      else
        let s := s.putCells [j.cluster, quadCluster (s.warp j.warp).quad] false ((locs.filterMap id).zip j.stage)
        let s := s.hitNow j.ck j.gang [{ sp := 2, bit := 25, va := j.dst, len := j.stage.length }]
        let (q, s) := s.seqNext (j.ck / 64)
        let msg : Message := { seq := q, sender := j.sender, kind := 1, payload := [BitVec.ofNat 32 j.dst, BitVec.ofNat 32 j.stage.length] ++ j.user, arrived := s.phc }
        done (s.updPort pk (fun x => { x with msgs := x.msgs ++ [msg], lastUsed := s.clock })) 0 q j.stage.length)

/-! ### JWAIT (R313) -/

/-- The reason with which JWAIT refuses a pattern word (R309). -/
def State.jwaitReason (s : State) (w : Warp) (n d : Nat) : Option Nat :=
  let x := s.pat (patKey (s.ckOf w) n)
  if 4096 ≤ n then some 1
  else if !x.valid then some 2
  else if !x.isWake then some 3
  else if !((List.range (8 * x.nports)).all (fun i => d + i < 512 && w.scalNamed (d + i))) then some 4
  else if !x.armed then some 5
  else none

/-- JWAIT (R313): the warp is registered and leaves the ready set as its step commits. (DEDUCED, log 32: safe.) -/
def execJwait (o : XOp) (s : State) : Out :=
  let m := s.me.step.issue
  .next (s.checked (.jwait o) m (fun s =>
    let w := s.me
    let n := (XOp.blk w o 0).toNat
    match s.jwaitReason w n o.d.toNat with
    | some r => s.raise cPATTERN_INVALID 0#32 (portInfo r n) m
    | none => s.viaUnit (s.patHome (s.ckOf w) (s.pat (patKey (s.ckOf w) n))) o.e (fun s =>
      (s.fenced s.actor).finish o.e none [.jwait (patKey (s.ckOf w) n) o.d.toNat m] [])))

/-! ### Timers (R314) -/

/-- The lowest free entry of a partition's timer table. -/
def State.freeTimer (s : State) (p : Nat) : Option Nat := (List.range 256).find? (fun h => !((s.part p).timers.get h).live)

/-- TIMEPOST (R314). -/
def execTimepost (o : XOp) (s : State) : Out :=
  let m := s.me.step.issue
  .next (s.checked (.timepost o) m (fun s =>
    let w := s.me
    let g := s.gangOf w
    let ck := s.ckOf w
    let n := (XOp.blk w o 0).toNat
    let per := (XOp.blk w o 3).toNat
    match s.portReason ck n true with
    | some r => s.raise cPORT_INVALID 0#32 (portInfo r n) m
    | none =>
    if per != 0 && per < 1000 then s.raise cPORT_INVALID 0#32 (portInfo 4 n) m
    else s.viaUnit (timerUnit g.part) o.e (fun s =>
      let s := s.orderWrite .rel (s.port (portKey ck n)).scope .scr false
      match s.freeTimer g.part with
      | none => s.putS o.e o.v o.d.toNat m false 0xFFFFFFFF
      | some h =>
        let t : Timer := { live := true, ctx := g.ctx, port := n, sec := (XOp.blk w o 2).toNat, ns := min (XOp.blk w o 1).toNat 999999999, period := per, payload := (List.range 6).map (fun i => XOp.blk w o (4 + i)) }
        (s.updPart g.part (fun p => { p with timers := p.timers.set h t })).putS o.e o.v o.d.toNat m false h)))

/-- TIMEPOST_CANCEL (R314). -/
def execTimepostCancel (o : XOp) (s : State) : Out :=
  let m := s.me.step.issue
  .next (s.checked (.timepostCancel o) m (fun s =>
    let w := s.me
    let g := s.gangOf w
    let n := (XOp.blk w o 0).toNat
    if n / 256 != 0 then s.raise cPORT_INVALID 0#32 (portInfo 4 n) m
    else s.viaUnit (timerUnit g.part) o.e (fun s =>
      let s := s.fenced s.actor
      let t := (s.part g.part).timers.get n
      if t.live && t.ctx == g.ctx then (s.updPart g.part (fun p => { p with timers := p.timers.set n {} })).putS o.e o.v o.d.toNat m false 0
      else s.putS o.e o.v o.d.toNat m false 1)))

/-- The deadline of an entry as a PHC value in units of 2^-16 ns: the second nearest to now with those low bits (R263). -/
def State.deadline (s : State) (sec ns : Nat) : Nat :=
  let d : Int := (BitVec.ofNat 32 sec - BitVec.ofNat 32 s.phcSec).toInt
  (((s.phcSec : Int) + d) * (65536 * 1000000000) + (ns : Int) * 65536).toNat

/-- Has the deadline of an entry passed (R314, R381)? -/
def State.timerDue (s : State) (t : Timer) : Bool := t.live && (t.due || s.deadlinePassed t.sec t.ns)

/-- TIMER_POST (R314): a due entry posts its message; a periodic one advances, a one-shot one is freed. While the miss buffer of the port's
join unit is full the timer holds the posting (R295). -/
def execTimerPost (part handle : Nat) (s : State) : Out :=
  let t := (s.part part).timers.get handle
  .next (
    if !s.timerDue t then s
    else if !s.canPost part t.ctx t.port then s.updPart part (fun p => { p with timers := p.timers.set handle { t with due := true } })
    else
      let dl := s.deadline t.sec t.ns
      let late := dl + 50 * 65536 < s.phc
      let s := s.post part t.ctx t.port { kind := 2, sender := handle, mflags := if late then 2 else 0, payload := t.payload, deadline := some dl }
      let ns := t.ns + t.period
      let t' : Timer := if t.period = 0 then {} else { t with sec := (t.sec + ns / 1000000000) % 2 ^ 32, ns := ns % 1000000000, due := false }
      s.updPart part (fun p => { p with timers := p.timers.set handle t' }))

/-! ### Queries and arming (R315) -/

/-- The pair of PORTQRY (R315). -/
def Port.query (x : Port) : Nat :=
  x.lost * 2 ^ 48 + (if x.wake != 0#32 then 2 ^ 19 else 0) + (if x.quar then 2 ^ 18 else 0) + (if x.resident then 2 ^ 17 else 0)
  + (x.depth - 1) % 256 * 2 ^ 9 + (if x.resident then x.msgs.length % 512 else 0)

/-- PORTQRY (R315). -/
def execPortqry (o : NOp) (s : State) : Out :=
  let m := s.me.step.issue
  .next (s.checked (.portqry o) m (fun s =>
    let ck := s.ckOf s.me
    let n := (s.srcW o.s0 0).toNat
    match s.portReason ck n false with
    | some r => s.raise cPORT_INVALID 0#32 (portInfo r n) m
    | none => (s.logRead s.actor m (natBytes 8 (s.port (portKey ck n)).query)).putS o.e o.v o.d.toNat m true (s.port (portKey ck n)).query))

/-- Is an entry malformed (R302)? -/
def State.patMalformed (s : State) (ck : Nat) (x : Pattern) : Bool :=
  let ps := x.ports
  let port (n : Nat) : Port := s.port (portKey ck n)
  ps.eraseDups.length != ps.length || !ps.all (fun n => (port n).home == (port (x.portNo 0)).home)
  || ps.any (fun n => !(port n).valid || (port n).quar) || x.reservedBad
  || (!x.isWake && !dsValid ((s.ctx ck).descs.get x.desc))

/-- The places of a disarmed pattern: its standing reservation is released, and of what a launch has taken each place as no gang holds
it; a launch that has yet to take it starts without (R288). -/
def State.releasePlaces (s : State) (pk : Nat) : State :=
  let s1 := match (s.pat pk).taken with
    | none => s
    | some ln => s.updLaunch ln (fun l => { l with giveBack := true, places := (l.places.zipIdx).map (fun (x : Option RsvPlace × Nat) => if s.placeHeld ln x.2 then x.1 else none) })
  let s2 := (s1.claimants pk).foldl (fun s ln => s.updLaunch ln (fun l => { l with rsv := false })) s1
  s2.updPat pk (fun x => { x with rsv := false, places := [], taken := none, closing := false })

/-- The last firing has disarmed a pattern: its reservation ends, once the launches that have yet to take it have (R288). -/
def State.closePlaces (s : State) (pk : Nat) : State :=
  if (s.claimants pk).isEmpty then s.releasePlaces pk else s.updPat pk (fun x => { x with closing := true })

/-- Disarm: the slot is free, PASSED is 0, waiters end in PATTERN_INVALID reason 5, the reservation is released (R288, R313). -/
def State.disarm (s : State) (pk : Nat) : State :=
  let ws := (s.pat pk).waiters
  let s := (s.releasePlaces pk).updPat pk (fun x => { x with armed := false, passed := 0, dueAt := 0, waiters := [] })
  ws.foldl (fun s u => if s.midStep (s.warp u).gang then s else s.unregister u pk) s

/-- PATARM (R315). -/
def execPatarm (o : NOp) (s : State) : Out :=
  let m := s.me.step.issue
  .next (s.checked (.patarm o) m (fun s =>
    let w := s.me
    let g := s.gangOf w
    let ck := s.ckOf w
    let n := (s.srcW o.s0 0).toNat
    let op := (s.srcW o.s1 0).toNat
    let pk := patKey ck n
    let x := s.pat pk
    let once := op == 3
    if 4096 ≤ n then s.raise cPATTERN_INVALID 0#32 (portInfo 1 n) m
    else if !x.valid then s.raise cPATTERN_INVALID 0#32 (portInfo 2 n) m
    else if op != 0 && s.patMalformed ck x then s.raise cPATTERN_INVALID 0#32 (portInfo 6 n) m
    else s.viaUnit (s.patHome ck x) o.e (fun s =>
      let s := s.fenced s.actor
      let prev := if x.armed then 1 else 0
      let done (s : State) (st : Nat) : State := s.putS o.e o.v o.d.toNat m false st
      if op = 0 then done (if x.armed then s.disarm pk else s) prev
      else if x.armed then done (s.updPat pk (fun y => { y with once := once })) prev
      else if 512 ≤ (s.armedIn (s.patHome ck x)).length then done s 0x0100
      else
        let keys := x.ports.map (portKey ck)
        match s.swapAll keys keys with
        | none => done s 0x0200
        | some t =>
          let d := (s.ctx ck).descs.get x.desc
          let rsv := !x.isWake && dsRsv d
          let refuse (r : Nat) : State :=
            done (s.record g.part g.ctx cADMISSION 0#32 (BitVec.ofNat 32 (x.desc * 65536 + r)) (BitVec.ofNat 32 g.gangId) (BitVec.ofNat 32 w.wid)) (65536 * r + 0x0300)
          let arm (t : State) (pl : List RsvPlace) : State :=
            done ((if x.closing then t.releasePlaces pk else t).updPat pk (fun y => { y with armed := true, once := once, passed := 0, dueAt := 0, rsv := rsv, places := pl, taken := none, armedAt := s.phc })) 0
          if !rsv then arm t []
          else if dsGangs d = 0 && dsRgangs d = 0 then refuse 5
          else match s.reserve pk with
            | none => refuse 4
            | some pl => arm { t with placings := t.placings.drop pl.length } pl)))

end Sys2Proof.Machine
end

