-- ==== Sys2Proof/Machine/Turn.lean ====
section
/-! DEFINITION. The issue choice of a quadrant (R283, R284, R373), the lane-cycle record (R376, R377), the clock. -/
set_option autoImplicit false

namespace Sys2Proof.Machine

/-! ### Readiness (R283) -/

/-- Does a reply hold one of the registers (R31)? -/
def Reply.holds (r : Reply) (x : RegRun) : Bool :=
  r.held && r.lanes != 0#32 && r.vec == x.vec && r.base < x.base + x.n && x.base < r.base + r.n

/-- Is an operand of the operation held by the scoreboard? -/
def Warp.blocked (w : Warp) (i : Instr) : Bool :=
  w.replies.any (fun r => (i.reads ++ i.writes).any r.2.holds)

/-- May the warp issue at all: resident, not waiting, not held by the debugger, by a save or by a watchdog? A step whose side
effect has performed goes on to its commit (R30). -/
def State.issuable (s : State) (u : Nat) : Bool :=
  let w := s.warp u
  let g := s.gangOf w
  w.live && (g.place == .resident || g.place == .stopping) && g.rerun.isNone && w.wait == .ready && !w.step.closed
  && (w.step.performed || (g.place == .resident && (!g.halted || w.stepping) && (!g.stop || g.wdWarp == some u)))
  && (w.step.started || w.runnable != 0#32)

/-- The next warp of a replay gang (R373): the one whose turn has not ended, else `next_warp` of the last committer. -/
def State.replayNext (s : State) (g : Nat) : Option Nat :=
  let x := s.gang g
  let n := x.warps.length
  let last := match x.lastCommit with
    | some k => k + 1
    | none => 0
  x.turnOf.or (firstSome (fun k =>
    let u := x.warps.getD ((last + k) % n) 0
    let w := s.warp u
    if w.live && w.wait == .ready && w.runnable != 0#32 then some u else none) (List.range n))

/-- Does latch `k` hold the value of a reply that has not arrived (R29)? -/
def Warp.latchOut (w : Warp) (k : Nat) : Bool :=
  match w.step.lrep.getD k none with
  | none => false
  | some id => w.replies.any (fun e => e.1 == id && !e.2.have_)

/-- May the operation execute, `j` places after the next one: its registers are free, and the latches filled so far that it reads have
arrived? -/
def Warp.operandsIn (w : Warp) (j : Nat) (i : Instr) : Bool :=
  !w.blocked i && i.latchReads.all (fun k => k < j || !w.latchOut (k - j))

/-- A side-effecting operation waits for every operand of the rest of its step, which cannot fail after it (R6, R30). -/
def Warp.opsReady (w : Warp) : List Instr → Bool
  | [] => true
  | i :: rest => w.operandsIn 0 i && (i.pos != .side || (rest.zipIdx).all (fun x => w.operandsIn (x.2 + 1) x.1))

/-- May the warp start or go on with a step now: issuable, chosen if its gang replays, its next operation's operands free? -/
def State.canIssue (s : State) (u : Nat) : Bool :=
  let w := s.warp u
  s.issuable u && !s.acqPending u
  && (w.step.started || !(s.launch (s.gangOf w).launch).replay || s.replayNext w.gang == some u)
  && (let w1 := if w.step.started then w else (s.beginStep u).warp u
      w1.opsReady w1.step.ops && !(w1.step.ops.head?.any (s.matrixWaits w1)))

/-- The warps that hold a slot of a quadrant. -/
def State.warpsOn (s : State) (q : Nat) : List Nat :=
  (s.warps.filter (fun e => e.2.live && e.2.quad == q && ((s.gang e.2.gang).place == .resident || (s.gang e.2.gang).place == .stopping))).map (·.1)

/-- Does `a` go before `b` at the start of a step (R284, R288)? -/
def State.goesBefore (s : State) (a b : Nat) : Bool :=
  let wa := s.warp a
  let wb := s.warp b
  let la := wa.urgent || 2048 ≤ wa.waited
  let lb := wb.urgent || 2048 ≤ wb.waited
  if la != lb then la
  else if la && wa.waited != wb.waited then wb.waited < wa.waited
  else
    let pa := (s.launch (s.gangOf wa).launch).prio
    let pb := (s.launch (s.gangOf wb).launch).prio
    if !la && pa != pb then pb < pa
    else if wa.lastStart != wb.lastStart then wa.lastStart < wb.lastStart
    else if wa.admitted != wb.admitted then wa.admitted < wb.admitted
    else wa.wid < wb.wid

/-- The best of a list of warps under an order. -/
def bestOf (before : Nat → Nat → Bool) : List Nat → Option Nat
  | [] => none
  | u :: r => some (r.foldl (fun a b => if before b a then b else a) u)

/-- The warp that a quadrant issues for: a step in progress first (R284). -/
def State.pickWarp (s : State) (q : Nat) : Option Nat :=
  let ready := (s.warpsOn q).filter s.canIssue
  let going := ready.filter (fun u => (s.warp u).step.started)
  match bestOf (fun a b => (s.warp a).lastStart < (s.warp b).lastStart) going with
  | some u => some u
  | none => bestOf s.goesBefore ready

/-! ### The lane-cycle record (R376, R377) -/

/-- The bin that a count goes to. -/
def binFor (bins : Map Bin) (slot : Nat) (pc : Word) : Nat :=
  (firstSome (fun k =>
    let b := bins.get k
    if b.slot == slot && b.base.toNat ≤ pc.toNat && pc.toNat < b.limit.toNat then some k else none) (List.range 15)).getD 15

/-- Saturating 48-bit addition. -/
def sat48 (a b : Nat) : Nat := min (a + b) (2 ^ 48 - 1)

def State.countLanes (s : State) (ck slot : Nat) (pc : Word) (act pre msk abs idle : Nat) : State :=
  s.updCtx ck (fun c =>
    let k := binFor c.dbg.bins slot pc
    { c with dbg := { c.dbg with bins := c.dbg.bins.upd k (fun b => { b with active := sat48 b.active act, predOff := sat48 b.predOff pre, masked := sat48 b.masked msk, absent := sat48 b.absent abs, idle := sat48 b.idle idle }) } })

/-- Count one issued operation of a warp (R376). -/
def State.countIssue (s : State) (u : Nat) (i : Instr) : State :=
  let w := s.warp u
  let at_ := w.step.issue
  let ex := w.execSet i.guard
  let gone := (Mask.ofFn (fun l => !w.unexited.has l)).lanes.length
  let s := s.countLanes (s.ckOf w) w.sp.kwslot w.step.first ex.lanes.length (at_ &&& ~~~ex).lanes.length (w.unexited &&& ~~~at_).lanes.length gone 0
  s.updQuad w.quad (fun q => { q with issued := true, lastCk := some (s.ckOf w), lastSlot := w.sp.kwslot, lastPc := w.step.first })

/-! ### Issuing -/

/-- How many gangs of a time-triggered launch its bound covers: all that its reservation counts, and every one of a concurrent launch
(R286, R288). -/
def Launch.bounded (l : Launch) : Nat :=
  if l.cls = 0 then l.gangs else if l.words.getD 1 0#32 = 0#32 then (l.words.getD 6 0#32).toNat else (l.words.getD 1 0#32).toNat

/-- The first operation of a gang's lowest WARPID, its step just fetched, is the start that a time trigger bounds: a late one is recorded
(R286, R287). -/
def State.timeCheck (s : State) (u : Nat) : State :=
  let w := s.warp u
  let g := s.gangOf w
  let l := s.launch g.launch
  match l.trigger with
  | none => s
  | some t =>
    if w.wid != 0 || l.lateDone || l.bounded ≤ g.gangId || !(l.late || t + 50 * 65536 < s.phc) then s
    else
      (s.updLaunch g.launch (fun l => { l with lateDone := true })).record l.part l.ctx cTIME_TRIGGER_LATE
        (BitVec.ofNat 32 (min ((s.phc - t) / 65536) 0xFFFFFFFF)) (BitVec.ofNat 32 (65536 * l.desc)) noUnit noUnit

/-- The start of a step ends its warp's wait for a slot; the first step of a reserved gang keeps its place in case 1 until it
commits (R284, R288). -/
def Warp.startStep (w : Warp) (reserved : Bool) : Warp := { w with waited := 0, urgent := w.urgent && reserved && w.sp.steps == 0 }

/-- Bring the chosen warp to its next operation: its step begins if none is in progress, what goes before the operation stands (R225, R25),
and the issue is counted. -/
def State.prepare (s : State) (u : Nat) : State :=
  let first := (s.warp u).lastStart == 0
  let s := if (s.warp u).step.started then s
    else
      let g := (s.warp u).gang
      let s := (s.updWarp u (fun w => w.startStep (s.gang g).reserved)).beginStep u
      if (s.launch (s.gang g).launch).replay then s.updGang g (fun x => { x with turnOf := some u, accs := [] }) else s
  let s := if first && (s.warp u).lastStart != 0 then s.timeCheck u else s
  let s := { s with actor := u }
  match (s.warp u).step.ops with
  | i :: _ => ((if i.pos == .regOnly then s else s.settleAcq u).freezeLatch u i).countIssue u i
  | [] => s

/-- After an issue: a single step that was abandoned or parked is over without a commit (R369), a replay gang's turn ends unless its
warp was rejected, and what arrived in the middle of a step acts at its boundary (R373). -/
def State.afterIssue (s : State) (u : Nat) : State :=
  let w := s.warp u
  let s := if w.live && w.stepping && !w.step.started then
      s.updWarp u (fun w => { w with stepping := false, stopRec := if w.stopRec.valid then w.stopRec else w.haltRecord (s.gang w.gang) 0 })
    else s
  let rejected := match w.wait with
    | .reject _ => true
    | _ => false
  let s := if (s.gang w.gang).turnOf == some u && !w.step.started && !rejected then s.updGang w.gang (fun x => { x with turnOf := none }) else s
  s.takeOwed w.gang

/-! ### The clock -/

/-- Units of 2^-16 ns in one clock of 1.6 GHz. -/
def phcPerClock : Nat := 40960

/-- A quadrant that issued nothing counts 32 idle lane-cycles for its last issue (R376). (DESIGN CHOICE, log 8: unsafe.) -/
def State.tickQuad (s : State) (q : Nat) : State :=
  let x := s.quad q
  let s := match x.issued, x.lastCk with
    | false, some ck => s.countLanes ck x.lastSlot x.lastPc 0 0 0 0 32
    | _, _ => s
  s.updQuad q (fun x => { x with issued := false })

/-- Does the gang's watchdog count (R289)? -/
def State.wdogCounts (s : State) (g : Nat) : Bool :=
  let x := s.gang g
  (x.place == .resident || x.place == .stopping) && !x.halted && x.rerun.isNone
  && !((s.liveWarps g).all (fun u => match (s.warp u).wait with | .sleep _ _ => true | _ => false))

end Sys2Proof.Machine
end

