-- ==== Sys2Proof/Machine/Sched.lean ====
section
/-! DEFINITION. Firing patterns (R304 to R307), admission and pre-emption (R277 to R282, R288), saving a gang (R351 to R353), the
gang watchdog (R289), and the ends of waits: replies, rejections, parks, fences, sleeps, memory ports. -/
set_option autoImplicit false

namespace Sys2Proof.Machine

/-! ### Saving (R351 to R353) -/

/-- Begin to stop a gang for a save. -/
def State.stopForSave (s : State) (g : Nat) : State :=
  if (s.gang g).place == .resident then s.updGang g (fun x => { x with place := .stopping, stopClock := s.clock }) else s

/-- The gangs that are pre-empted together with one: all of a concurrent launch (R281). -/
def State.withLaunch (s : State) (g : Nat) : List Nat :=
  let n := (s.gang g).launch
  if (s.launch n).cls = 0 then (s.gangs.filter (fun e => e.2.launch == n && e.2.place == .resident)).map (·.1) else [g]

/-- SUPERVISOR_PREEMPT (R282). -/
def execSupervisorPreempt (gang : Nat) (s : State) : Out :=
  .next (if (s.gang gang).place == .resident then (s.withLaunch gang).foldl State.stopForSave s else s)

/-- A reply of a load or atomic that a save waits for. -/
def Reply.drains (r : Reply) : Bool := r.vec && !r.engine && r.held

/-- Does the gang still wait for a reply of a load or atomic? -/
def State.drainPending (s : State) (g : Nat) : Bool :=
  (s.liveWarps g).any (fun u => (s.warp u).replies.any (fun e => e.2.drains))

/-- The physical quadrants of a resident gang. (DEDUCED, log 49: safe.) -/
def Gang.quads (x : Gang) : List Nat := (List.range (4 * x.cores)).map x.physQuad

/-- May the save complete: every warp at its boundary, a watchdog stop taken, the replies in, the matrix queues empty (R166, R349,
R352)? (DEDUCED, log 49: safe.) -/
def State.saveDue (s : State) (g : Nat) : Bool :=
  (s.gang g).place == .stopping && !(s.gang g).wdPend && !s.frozen g && s.atBoundary g && !s.drainPending g && (s.gang g).quads.all (fun q => (s.quad q).queue.isEmpty)

/-- A warp as it is saved: its latches, its rejection and its binding to an old generation end (R79, R190, R351). -/
def Warp.saved (w : Warp) : Warp := { w.toBoundary with wait := w.wait.atSave, age := none, rejKind := 0, bound := 0 }

/-- A warp of a gang that is saved: an old generation to which none is bound any more goes (R75, R79). -/
def State.saveWarp (s : State) (u : Nat) : State :=
  let s := (s.unpark u).leaveLoop u
  (s.updWarp u Warp.saved).dropOld (s.partOf (s.warp u)) (s.warp u).bound

/-- The save completes (R351): the stores that its warps see have performed; the cause is PREEMPT. (DEDUCED, log 49: safe.) -/
def State.saveGang (s : State) (g : Nat) : State :=
  if !s.saveDue g then s
  else
    let x := s.gang g
    let s := s.drainHeld (fun h => x.warps.contains h.warp || h.shown.contains x.cluster)
    let s := (s.liveWarps g).foldl State.saveWarp s
    ((s.updGang g (fun x => { x with place := .saved, saveCause := cPREEMPT, turnOf := none })).takeImage g).takeOwed g

/-- Clocks of the drain limit of R352: 2 µs. -/
def drainClocks : Nat := 3200

/-- May the drain of a save run out now? (DESIGN CHOICE, log 8: unsafe.) -/
def State.drainOver (s : State) (g : Nat) : Bool :=
  (s.gang g).place == .stopping && s.atBoundary g && s.drainPending g && (s.gang g).stopClock + drainClocks ≤ s.clock

/-- Tag the words of the lanes `m` that a reply would have written (R350). -/
def Warp.tagReply (w : Warp) (r : Reply) (m : Mask) (cause : Nat) : Warp :=
  (r.lanes &&& m).lanes.foldl (fun w l => (List.range r.n).foldl (fun w j => w.tagV (r.base + j) l { cause := cause, addr := r.addrs.at l }) w) w

/-- Take the lanes `m` off a reply that has served them; a reply that is due to no lane is over. -/
def Warp.endLanes (w : Warp) (id : Nat) (r : Reply) (m : Mask) : Warp :=
  let rest := r.lanes &&& ~~~m
  { w with replies := if rest = 0#32 then w.replies.erase id else w.replies.set id { r with lanes := rest } }

/-- The words of the lanes `m` of a reply are tagged instead of written (R350). -/
def Warp.failLanes (w : Warp) (id : Nat) (m : Mask) (cause : Nat) : Warp :=
  let r := w.replies.get id
  (w.tagReply r m cause).endLanes id r m

/-- A replay gang logs tags that were set (R374). -/
def State.logTags (s : State) (u : Nat) (m : Mask) (cause : Nat) : State :=
  s.logInput (s.warp u).gang 4 (s.warp u).wid m (natBytes 4 cause)

/-- A reply of a warp is lost: its words are tagged (R350, R352, R374). -/
def State.loseReply (s : State) (u cause id : Nat) : State :=
  (s.logTags u ((s.warp u).replies.get id).lanes cause).updWarp u (fun w => w.failLanes id Mask.full cause)

/-- SAVE_DRAIN_TIMEOUT (R352): every reply still out is lost, and its words are tagged. -/
def execSaveDrainTimeout (gang : Nat) (s : State) : Out :=
  .next (
    if !s.drainOver gang then s
    else (s.liveWarps gang).foldl (fun s u =>
      (((s.warp u).replies.filter (fun e => e.2.drains)).map (·.1)).foldl (fun s id => s.loseReply u cREPLY_LOST id) s) s)

/-! ### Replies (R31) -/

/-- The lanes of a reply that are tagged instead of written. -/
def Reply.badLanes (r : Reply) : Mask := Mask.ofFn (fun l => r.fails.get l != 0)

/-- The causes with which lanes of `m` fail, each with its lanes (R350). -/
def Reply.badBy (r : Reply) (m : Mask) : List (Nat × Mask) :=
  (((m &&& r.badLanes).lanes.map r.fails.get).eraseDups).map (fun c => (c, Mask.ofFn (fun l => m.has l && r.fails.get l == c)))

/-- The lanes `m` of a vector reply reach their registers: written, or tagged where the reply failed; the flags of an atomic are set with
it (R31, R207, R350). -/
def Warp.takeReply (w : Warp) (id : Nat) (m : Mask) : Warp :=
  let r := w.replies.get id
  let hit := r.lanes &&& m &&& ~~~r.badLanes
  let w := (List.range r.n).foldl (fun w j => w.setVs (r.base + j) hit (r.vals.getD j [])) w
  let w := if hit = 0#32 then w else { w with sp := { w.sp with flags := w.sp.flags ||| r.flags } }
  ((r.badBy m).foldl (fun w x => w.tagReply r x.2 x.1) w).endLanes id r m

/-- What a replay gang logs of it: an atomic's values, and the tags (R374). -/
def State.logReply (s : State) (u : Nat) (r : Reply) (m : Mask) : State :=
  let hit := r.lanes &&& m &&& ~~~r.badLanes
  let s := if r.atomic && hit != 0#32 then s.logRead u hit (hit.lanes.flatMap (fun l => r.vals.flatMap (fun v => natBytes 4 (v.at l).toNat))) else s
  (r.badBy (r.lanes &&& m)).foldl (fun s x => s.logTags u x.2 x.1) s

/-- LOAD_REPLY (R31): some lanes of a reply are written, and a failed reply tags them (R350). (DESIGN CHOICE, log 18: unsafe.) -/
def execLoadReply (warp reply : Nat) (lanes : Mask) (s : State) : Out :=
  let w := s.warp warp
  let r := w.replies.get reply
  .next (
    if !(w.live && w.replies.any (fun e => e.1 == reply) && r.held && r.have_ && (r.lanes &&& lanes != 0#32 || r.lanes = 0#32)) || s.frozen w.gang then s
    else if !r.vec then s.writeScalars warp reply (r.vals.map (fun v => v.at 0))
    else ((if r.acq then s.freeze warp else s).logReply warp r lanes).updWarp warp (fun w => w.takeReply reply lanes))

/-! ### Retries and wakes -/

/-- The oldest rejected warp of a cluster (R190). (DEDUCED, log 25: unsafe.) -/
def State.oldestRejected (s : State) (c : Nat) : Option Nat :=
  (s.warps.foldl (fun (best : Option (Nat × Nat)) e => match e.2.wait with
    | .reject a =>
      if e.2.live && quadCluster e.2.quad == c && s.running e.2 then
        (match best with
          | some (_, b) => if a < b then some (e.1, a) else best
          | none => some (e.1, a))
      else best
    | _ => best) none).map (·.1)

/-- REJECT_RETRY (R190): the oldest rejected warp of a cluster restarts its step and keeps its age. -/
def execRejectRetry (cluster : Nat) (s : State) : Out :=
  .next (match s.oldestRejected cluster with
    | none => s
    | some u => s.updWarp u (fun w => { w with wait := .ready }))

/-- PARK_WAKE (R78, R185, R203): what the warp waits for is there, and its step restarts. (DESIGN CHOICE, log 31: safe.) -/
def execParkWake (warp : Nat) (s : State) : Out :=
  .next (if (s.warp warp).live && s.waitOver warp then (s.logWake warp []).updWarp warp (fun w => { w with wait := .ready }) else s)

/-- FENCE_SATISFIED (R213): the closed step commits. -/
def execFenceSatisfied (warp : Nat) (s : State) : Out :=
  let w := s.warp warp
  .next (if w.live && !s.frozen w.gang && w.wait == .fence && w.step.closed && s.fencesOk warp then (s.updWarp warp (fun w => { w with wait := .ready })).commitNow warp else s)

/-- SLEEP_DEADLINE (R263). -/
def execSleepDeadline (warp : Nat) (s : State) : Out :=
  let w := s.warp warp
  .next (match w.wait with
    | .sleep sec ns => if w.live && s.waitsEnd w.gang && s.deadlinePassed sec ns then (s.logWake warp []).updWarp warp (fun w => { w with wait := .ready }) else s
    | _ => s)

/-- The warp that the age guard of a quadrant takes: ready, between steps, for 2,048 clocks, and longest of all (R284). -/
def State.guardPick (s : State) (q : Nat) : Option Nat :=
  bestOf (fun a b => (s.warp b).waited < (s.warp a).waited)
    ((s.warpsOn q).filter (fun u => 2048 ≤ (s.warp u).waited && !(s.warp u).step.started && !(s.warp u).urgent))

/-- ISSUE_AGE_GUARD (R284): the warp that has waited longest goes before all others. -/
def execIssueAgeGuard (quad : Nat) (s : State) : Out :=
  .next (match s.guardPick quad with
    | none => s
    | some u => s.updWarp u (fun w => { w with urgent := true }))

/-! ### The memory ports (R207, R210, R211) -/

/-- MEMPORT_ATOMIC (R207). -/
def execMemportAtomic (op : Nat) (s : State) : Out :=
  .next (if s.portFirst op && (s.portOps.get op).reply.isSome then s.doAtomic op else s)

/-- May the listed reductions perform as one merge: each live and of one operation, several of them to one line, none behind another
update of its bytes by its warp (R210)? (DESIGN CHOICE, log 26: safe.) -/
def State.mergeable (s : State) (ops : List Nat) : Bool :=
  let x0 := s.portOps.get (ops.headD 0)
  !ops.isEmpty && ops.eraseDups.length == ops.length
  && (ops.length == 1 || (ops.flatMap (fun n => (s.portOps.get n).keys)).eraseDups.length == 1)
  && ops.all (fun n =>
    let x := s.portOps.get n
    x.live && x.reply.isNone && x.aop == x0.aop && x.space == x0.space
    && s.portOps.all (fun e => !(e.2.live && e.1 < n && e.2.warp == x.warp && !ops.contains e.1 && e.2.meets x)))

/-- MEMPORT_REDUCTION (R210): one or more pending reductions perform. (DESIGN CHOICE, log 26: safe.) -/
def execMemportReduction (ops : List Nat) (s : State) : Out := .next (if s.mergeable ops then s.doReductions ops else s)

/-- DOMAIN_ACKNOWLEDGEMENT (R211): the fabric's remote-flag register takes the flags. -/
def execDomainAcknowledgement (ack : Nat) (s : State) : Out :=
  let x := s.acks.get ack
  .next (if x.live then { s with acks := s.acks.erase ack }.orRemote x.ck fabricPort x.flags else s)

/-! ### Placing gangs (R278 to R280, R288) -/

/-- Start the next gang of a launch in admission act `act`: at its reserved place, or at another with the lowest free spill slots. -/
def State.startNext (s : State) (act ln : Nat) (pl : Place × Option RsvPlace) : State :=
  let l := s.launch ln
  match pl.2 with
  | some x => s.startGang act ln l.started x.place x.slots true
  | none => s.startGang act ln l.started pl.1 (s.slotsFree (ctxKey l.part l.ctx) (warpRoles l.words).length) false

/-- A saved gang runs again at a place (R146, R147, R190, R282): its warps keep all but their quadrants, and its cluster's L1 starts a
new generation. (DEDUCED, log 21: unsafe.) -/
def State.resumeGang (s : State) (act g : Nat) (at_ : Place) (reserved : Bool) : State :=
  let x := { s.gang g with place := .resident, coreBase := at_.core, assign := at_.assign, cluster := at_.core / 8, saveCause := 0, admitted := act, reserved := reserved }
  let s := (s.setGang g x).dropImage g
  let s := (s.liveWarps g).foldl (fun s u => s.updWarp u (fun w => { w with quad := x.physQuad (w.wid % (4 * x.cores)) })) s
  (s.bumpGen (at_.core / 8)).wakeTraps g

/-! ### The launch queue (R278) -/

/-- What a queue entry asks for next: gangs to start or saved gangs to resume. -/
inductive Demand
  | start (n : Nat)
  | resume (gs : List Nat)
  deriving DecidableEq, Repr

/-- The next demand of a launch; none while it asks for nothing or a gang saved with others is still stopping. -/
def State.demand (s : State) (ln : Nat) : Option Demand :=
  let l := s.launch ln
  let own := s.gangs.filter (fun e => e.2.launch == ln)
  let saved := (own.filter (fun e => e.2.place == .saved)).map (·.1)
  if !l.live then none
  else if l.cls = 0 then
    (if l.started < l.gangs then some (.start (l.gangs - l.started))
     else if saved.isEmpty || own.any (fun e => e.2.place == .stopping) then none
     else some (.resume saved))
  else match saved with
    | g :: _ => some (.resume [g])
    | [] => if l.started < l.gangs then some (.start 1) else none

/-- Does `a` stand before `b` in the launch queue? -/
def State.queueBefore (s : State) (a b : Nat) : Bool :=
  let x := s.launch a
  let y := s.launch b
  if x.prio != y.prio then y.prio < x.prio else x.firing < y.firing

/-- The launch at the head of a partition's queue. Room made by a pre-emption goes to the launch it was made for, unless one of
higher priority has come (R281). (DEDUCED, log 48: unsafe.) -/
def State.queueHead (s : State) (p : Nat) : Option Nat :=
  let ls := (s.launches.filter (fun e => e.2.part == p && (s.demand e.1).isSome)).map (·.1)
  match bestOf s.queueBefore ls, (s.part p).madeFor with
  | some h, some m => if ls.contains m && !((s.launch m).prio < (s.launch h).prio) then some m else some h
  | h, _ => h

/-- The reserved places of the gangs that a demand names, in their order; none for a gang that has none (R288). -/
def State.demandOwn (s : State) (ln : Nat) : Demand → List (Option RsvPlace)
  | .start n => (List.range n).map (fun j => (s.launch ln).places.getD ((s.launch ln).started + j) none)
  | .resume gs => gs.map (fun g => (s.launch ln).places.getD (s.gang g).gangId none)

/-- Each gang's place: its own reserved one, or the next of the free ones. -/
def mergePlaces : List (Option RsvPlace) → List Place → List (Place × Option RsvPlace)
  | [], _ => []
  | some x :: r, fs => (x.place, some x) :: mergePlaces r fs
  | none :: r, f :: fs => (f, none) :: mergePlaces r fs
  | none :: _, [] => []

/-- Spill slots that a demand takes beside reserved ones. -/
def State.demandSlots (s : State) (ln : Nat) (d : Demand) : Nat :=
  match d with
  | .start _ => ((s.demandOwn ln d).filter (·.isNone)).length * (warpRoles (s.launch ln).words).length
  | .resume _ => 0

/-- The places at which a demand fits, the gangs of `drop` away, beside the occupants `more` and `slots` further spill slots. -/
def State.demandPlaces (s : State) (p ln : Nat) (d : Demand) (drop : List Nat) (more : List Occ) (slots : Nat) : Option (List (Place × Option RsvPlace)) :=
  let x := s.part p
  let l := s.launch ln
  let own := s.demandOwn ln d
  let need := s.demandSlots ln d + slots
  if (s.slotsFree (ctxKey l.part l.ctx) need).length < need then none
  else (placeMany x.base x.nsec l.words (own.filter (·.isNone)).length s.placings (s.residentOcc p drop ++ s.reservedOcc p ++ more)).map (mergePlaces own)

/-- Meet a demand at its places, in one admission act. (DEDUCED, log 48: unsafe.) -/
def State.letIn (s : State) (p ln : Nat) (d : Demand) (pl : List (Place × Option RsvPlace)) : State :=
  let (act, s) := s.fresh
  let s := { s with placings := s.placings.drop (pl.filter (·.2.isNone)).length }
  let s := match d with
    | .start _ => pl.foldl (fun (s : State) x => s.startNext act ln x) s
    | .resume gs => (gs.zip pl).foldl (fun (s : State) (x : Nat × Place × Option RsvPlace) => s.resumeGang act x.1 x.2.1 x.2.2.isSome) s
  s.updPart p (fun x => if x.madeFor = some ln then { x with madeFor := none } else x)

/-- May a gang of its partition be pre-empted for the launch at the head of the queue (R278, R281, R288)? -/
def State.preemptible (s : State) (h g : Nat) : Bool :=
  let x := s.gang g
  let v := s.launch x.launch
  let l := s.launch h
  x.place == .resident && x.part == l.part && !x.reserved && x.launch != h
  && (v.cls != 0 || s.gangs.all (fun e => e.2.launch != x.launch || !e.2.reserved))
  && (v.prio < l.prio || (v.prio == l.prio && v.cls == 2 && l.cls != 2))

/-- Does `a` go before `b` as a victim (R281)? -/
def State.victimBefore (s : State) (a b : Nat) : Bool :=
  let pa := (s.launch (s.gang a).launch).prio
  let pb := (s.launch (s.gang b).launch).prio
  if pa != pb then pa < pb else (s.gang b).admitted < (s.gang a).admitted

/-- Insert into a list in the victims' order. -/
def State.insertVictim (s : State) (g : Nat) : List Nat → List Nat
  | [] => [g]
  | x :: r => if s.victimBefore g x then g :: x :: r else x :: s.insertVictim g r

/-- The shortest run of victims that makes room for a demand; none if all of them do not. -/
def State.victims (s : State) (p ln : Nat) (d : Demand) : List Nat → List Nat → Option (List Nat)
  | [], drop => if (s.demandPlaces p ln d drop [] 0).isSome then some drop else none
  | g :: rest, drop =>
    if (s.demandPlaces p ln d drop [] 0).isSome then some drop
    else if drop.contains g then s.victims p ln d rest drop
    else s.victims p ln d rest (drop ++ s.withLaunch g)

/-- What is kept for the launch at the head of the queue: where it will stand once the gangs being stopped are away, else once all
are, and its spill slots if the launch `ln` takes them of the same context (R278). (DEDUCED, log 48: unsafe.) -/
def State.headKeeps (s : State) (p h : Nat) (d : Demand) (ln : Nat) : List Occ × Nat :=
  let all := (s.gangs.filter (fun e => e.2.part == p)).map (·.1)
  let words := (s.launch h).words
  let pl := ((s.demandPlaces p h d (all.filter (fun g => (s.gang g).place == .stopping)) [] 0).or (s.demandPlaces p h d all [] 0)).getD []
  (pl.map (fun x => occOf words x.1),
   if (s.launch h).ctx == (s.launch ln).ctx then s.demandSlots h d else 0)

/-- The first launch behind the head that fits outside what is kept for the head, with its demand and places (R278). -/
def State.behindHead (s : State) (p h : Nat) (d : Demand) : Option (Nat × Demand × List (Place × Option RsvPlace)) :=
  let fit (ln : Nat) : Option (Nat × Demand × List (Place × Option RsvPlace)) :=
    match s.demand ln with
    | none => none
    | some e => let k := s.headKeeps p h d ln; (s.demandPlaces p ln e [] k.1 k.2).map (fun pl => (ln, e, pl))
  let ls := (s.launches.filter (fun e => e.2.part == p && e.1 != h)).map (·.1)
  (bestOf s.queueBefore (ls.filter (fun ln => (fit ln).isSome))).bind fit

/-- The gangs to stop for the launch at the head, whole launches of concurrent ones; none if that makes no room or all are stopping
already (R281). -/
def State.stopVictims (s : State) (p h : Nat) (d : Demand) : Option State :=
  let stopping := (s.gangs.filter (fun e => e.2.part == p && e.2.place == .stopping)).map (·.1)
  let cands := ((s.gangs.keys).filter (s.preemptible h)).foldl (fun a g => s.insertVictim g a) []
  match s.victims p h d cands stopping with
  | none => none
  | some gs => if gs.length ≤ stopping.length then none else some ((gs.foldl State.stopForSave s).updPart p (fun x => { x with madeFor := some h }))

/-- What the distributor of a partition does next, if anything (R278, R281): the head of the queue is admitted, room is made for it, or
a launch behind it is admitted on what is not kept for it. -/
def State.admission (s : State) (p : Nat) : Option State :=
  match s.queueHead p with
  | none => none
  | some h =>
    let s := s.takePlaces h
    match s.demand h with
    | none => none
    | some d =>
      match s.demandPlaces p h d [] [] 0 with
      | some pl => some (s.letIn p h d pl)
      | none => (s.stopVictims p h d).or ((s.behindHead p h d).map (fun x => s.letIn p x.1 x.2.1 x.2.2))

/-- GANG_ADMISSION (R278 to R281): the launch at the head of the queue is admitted, or gangs are pre-empted for it. (DESIGN CHOICE, log 1: safe.) -/
def execGangAdmission (part : Nat) (s : State) : Out :=
  .next (if (s.part part).dump.isSome then s else (s.admission part).getD s)

/-! ### Firing (R304 to R307) -/

/-- Do two patterns share a port? -/
def Pattern.shares (x y : Pattern) : Bool := x.ports.any (fun n => y.ports.contains n)

/-- Does complete pattern `a` fire before `b`, of the same priority (R304)? -/
def State.firesBefore (s : State) (a b : Nat) : Bool :=
  let x := s.pat a
  let y := s.pat b
  let dx := x.passed == 8
  let dy := y.passed == 8
  if dx != dy then dx
  else if dx && x.dueAt != y.dueAt then x.dueAt < y.dueAt
  else
    let hx := s.oldestHead a
    let hy := s.oldestHead b
    if hx != hy then seqBefore hx hy else a % 4096 < b % 4096 || (a % 4096 == b % 4096 && a < b)

/-- The complete patterns of highest priority, and the one of them that fires (R304). (DEDUCED, log 36: safe.) -/
def State.fireChoice (s : State) (sec : Nat) : Option (Nat × List Nat) :=
  let c := s.completeIn sec
  let pr := (c.map (fun k => (s.pat k).prio)).foldl max 0
  let top := c.filter (fun k => (s.pat k).prio == pr)
  (bestOf s.firesBefore top).map (fun k => (k, top))

/-- The eight words of a message (R296). -/
def Message.words (m : Message) : List Word :=
  [m.seq, BitVec.ofNat 32 (m.sender % 65536 + m.kind % 256 * 65536 + m.mflags % 256 * 2 ^ 24)] ++ (List.range 6).map (fun i => m.payload.getD i 0#32)

/-- consume(P) of R305, in the act of firing. -/
def State.consume (s : State) (pk : Nat) : State :=
  let x := s.pat pk
  let s := x.ports.foldl (fun s n => s.updPort (portKey (pk / 4096) n) (fun y => { y.pop with lastUsed := s.clock })) s
  s.updPat pk (fun x => { x with passed := 0, dueAt := 0, armed := x.armed && !x.once })

/-- The others that were passed over (R304). -/
def State.passOver (s : State) (pk : Nat) (top : List Nat) : State :=
  let stamp := s.nextUid
  let x := s.pat pk
  top.foldl (fun s q =>
    if q == pk || q / 4096 != pk / 4096 || !x.shares (s.pat q) then s
    else s.updPat q (fun y => { y with passed := min (y.passed + 1) 8, dueAt := if y.passed == 7 then stamp else y.dueAt }))
    { s with nextUid := stamp + 1 }

/-- Write the messages into a waiter's scalars and end its wait, where the wait stands (R307). -/
def State.releaseWaiter (s : State) (u pk : Nat) (ms : List Message) : State :=
  let w := s.warp u
  let is_ (t : Wait) : Option Nat := match t with
    | .jwait p d _ _ => if p == pk then some d else none
    | _ => none
  let words := ms.flatMap Message.words
  let put (w : Warp) (d : Nat) : Warp := (words.zipIdx).foldl (fun w x => w.setS (d + x.2) x.1) w
  let s := s.logWake u (words.flatMap (fun x => natBytes 4 x.toNat))
  let s := match is_ w.wait, is_ w.rsS.wait with
    | some d, _ => s.setWarp u { put w d with wait := .ready }
    | none, some d => s.setWarp u { put w d with rsS := { w.rsS with wait := .ready } }
    | none, none => s
  s.bumpGen (quadCluster w.quad)

/-- A launch handler: the firing takes its number, the launch enters the queue or is refused; a reserved one starts at once (R277, R278,
R288, R306). (DEDUCED, log 50: unsafe.) -/
def State.fireLaunch (s : State) (pk : Nat) (ms : List Message) (seq : Word) : State :=
  let ck := pk / 4096
  let p := ck / 64
  let c := ck % 64
  let desc := (s.pat pk).desc
  let d := (s.ctx ck).descs.get desc
  let n := if dsGangs d = 0 then (((ms.headD {}).payload).headD 0#32).toNat else dsGangs d
  let firing := (s.part p).firing
  let s := s.updPart p (fun x => { x with firing := x.firing + 1 })
  match s.admissionReason p c d n pk with
  | some r =>
    let s := s.record p c cADMISSION 0#32 (BitVec.ofNat 32 (65536 * desc + r)) noUnit noUnit
    let s := if (s.pat pk).armed then s else s.closePlaces pk
    if dsRefPort d = 0xFFFFFFFF then s
    else if 65536 ≤ dsRefPort d then s.record p c cPORT_FULL 7#32 (BitVec.ofNat 32 (dsRefPort d)) noUnit noUnit
    else s.post p c (dsRefPort d) { kind := 7, payload := [BitVec.ofNat 32 r, BitVec.ofNat 32 desc, BitVec.ofNat 32 n] }
  | none =>
    let consts : Map Word := match s.constImage p c d with
      | none => []
      | some locs => (locs.zipIdx).foldl (fun m x => Map.set m x.2 (BitVec.ofNat 32 (s.read x.1 4))) []
    let trig := (ms.filterMap (·.deadline)).foldl (fun a t => some (max t (a.getD 0))) none
    let late := match trig with
      | none => false
      | some t => ms.any (fun m => m.deadline != some t && t < m.arrived) || t < (s.pat pk).armedAt || ((s.part p).fullAt != 0 && t ≤ (s.part p).fullAt)
    let (ln, s) := s.fresh
    let l : Launch :=
      { live := true, part := p, ctx := c, desc := desc, words := d, gangs := n, prio := dsPrio d, cls := dsClass d, firing := firing,
        seq := seq, msgs := (ms.flatMap Message.words).flatMap (fun w => natBytes 4 w.toNat), consts := consts, pat := pk % 4096,
        rsv := (s.pat pk).rsv, replay := dsReplay d, trigger := if (s.pat pk).rsv then trig else none, late := late }
    let s := { s with launches := s.launches.set ln l }.takePlaces ln
    let s := if (s.pat pk).armed then s else s.closePlaces pk
    let own := (List.range n).map (fun k => (s.launch ln).places.getD k none)
    if own.all (·.isNone) || (s.part p).dump.isSome || (l.cls = 0 && own.any (·.isNone)) then s
    else
      let (act, s) := s.fresh
      (own.takeWhile (·.isSome)).foldl (fun s x => s.startNext act ln ({}, x)) s

/-- PATTERN_FIRE (R304): one complete pattern of a section's join unit fires. (DESIGN CHOICE, log 1: safe.) -/
def execPatternFire (sec : Nat) (s : State) : Out :=
  .next (match s.fireChoice sec with
    | none => s
    | some (pk, top) =>
      let x := s.pat pk
      let ck := pk / 4096
      let ms := x.ports.filterMap (fun n => (s.port (portKey ck n)).head)
      let seq := s.oldestHead pk
      let s := (s.consume pk).passOver pk top
      if x.isWake then
        match x.waiters with
        | [] => s
        | u :: rest =>
          let t := (s.updPat pk (fun y => { y with waiters := rest })).releaseWaiter u pk ms
          if (t.pat pk).armed then t else t.disarm pk
      else s.fireLaunch pk ms seq)

/-! ### The gang watchdog (R289) -/

/-- Clocks in a microsecond. -/
def usClocks : Nat := 1600

/-- May the watchdog expire now? -/
def State.wdogDue (s : State) (g : Nat) : Bool :=
  let x := s.gang g
  (x.place == .resident || x.place == .stopping) && !x.halted && !x.stop && x.rerun.isNone && wdogPeriod (s.launch x.launch).words * usClocks ≤ x.wdog

/-- GANG_WATCHDOG_EXPIRY (R289): every warp stops at its next boundary; at the last one WATCHDOG is raised. -/
def execGangWatchdogExpiry (gang : Nat) (s : State) : Out :=
  .next (if s.wdogDue gang then (s.updGang gang (fun x => { x with stop := true, wdPend := true })).raiseWatchdog gang else s)

end Sys2Proof.Machine
end

