-- ==== Sys2Proof/Machine/Debug.lean ====
section
/-! DEFINITION. The debugger (R360 to R371), deterministic replay (R372 to R375), the lane-cycle record's reader (R377). -/
set_option autoImplicit false

namespace Sys2Proof.Machine

/-! ### The debug right (R360, R371, R416) -/

/-- The debug side of a context. -/
def State.updDbg (s : State) (ck : Nat) (f : Debug → Debug) : State := s.updCtx ck (fun c => { c with dbg := f c.dbg })

/-- The control cores answer the debugger's command with an error, or without one. -/
def State.dbgError (s : State) (ck : Nat) (e : Bool) : State := s.updDbg ck (fun d => { d with error := e })

/-- May the debug right of a context be granted in this life-cycle state (R416)? -/
def State.mayDebug (s : State) (ck : Nat) : Bool :=
  match s.mc.life with
  | .factory | .fieldDebug => true
  | .field => (s.part (ck / 64)).supDbg
  | _ => false

/-- DEBUG_RIGHT_GRANT (R360, R416): to one session. -/
def execDebugRightGrant (ctx session : Nat) (s : State) : Out :=
  .next (
    if (s.ctx ctx).live && s.mayDebug ctx && !s.attached ctx then s.updDbg ctx (fun d => { d with session := some session })
    else s)

/-- The gangs of a context that have not retired. -/
def State.gangsOfCtx (s : State) (ck : Nat) : List Nat :=
  (s.gangs.filter (fun e => ctxKey e.2.part e.2.ctx == ck && e.2.place != .retired && e.2.place != .absent)).map (·.1)

/-! ### Snapshots of a replay gang (R374, R375) -/

/-- Bring a gang to a snapshot: its warps, its barriers, its memory, its names. Where it is placed stays as it is. (DESIGN CHOICE, log 59: unsafe.) -/
def State.restoreSnap (s : State) (g : Nat) (y : Snap) : State :=
  let x := s.gang g
  let lo := gangLoc g 0
  let s := y.warps.foldl (fun s p => s.setWarp p.1 { p.2 with quad := (s.warp p.1).quad, spillSlot := p.2.spillSlot }) s
  let s := { s with
    mem := y.mem.foldl (fun (m : Map Byte) (c : Nat × Byte) => m.set c.1 c.2) (s.mem.keep (fun k _ => !(lo ≤ k && k < lo + 2 ^ 22)))
    poisonUnit := y.poison.foldl (fun (m : Map Bool) k => m.set k true) (s.poisonUnit.keep (fun k _ => !(lo ≤ 16 * k && 16 * k < lo + 2 ^ 22))) }
  s.setGang g { y.gang with place := x.place, cluster := x.cluster, coreBase := x.coreBase, assign := x.assign, halted := x.halted, stop := x.stop, reserved := x.reserved, saveCause := x.saveCause, stopClock := x.stopClock, admitted := x.admitted, rerun := x.rerun }

/-- Does a point come before another (R372)? -/
def pointBefore (a b : Nat × Nat) : Bool := a.1 < b.1 || (a.1 == b.1 && a.2 < b.2)

/-- The point at which a gang stands. -/
def Gang.point (x : Gang) : Nat × Nat := (x.interval, x.count)

/-- The point to which the gang has run: where it first halted while it re-executes (R375). -/
def Gang.present (x : Gang) : Nat × Nat := x.rerun.getD x.point

/-- The gang reaches the point at which it first halted: it is live again. -/
def State.goLive (s : State) (g : Nat) : State :=
  match (s.gang g).rerun, (s.history.get g).getLast? with
  | some _, some y =>
    let s := (s.restoreSnap g y).updGang g (fun x => { x with rerun := none })
    { s with history := s.history.set g (s.history.get g).dropLast }
  | _, _ => s

/-- Every warp of a halted gang gets a stop record anew (R367). -/
def State.markStops (s : State) (g : Nat) : State :=
  let x := s.gang g
  x.warps.foldl (fun s u => if (s.warp u).live then s.updWarp u (fun w => { w with stopRec := w.haltRecord x 0, stepping := false }) else s) s

/-! ### Resuming (R370, R371) -/

/-- A warp goes on from its stop. -/
def Warp.goOn (w : Warp) : Warp := { w with stopRec := {}, stepping := false }

/-- A gang that runs again settles its barriers and takes the traps that its waits ended in (R274, R370). -/
def State.runLive (s : State) (g : Nat) : State := (s.settleAll g).wakeTraps g

/-- A halted gang resumes; one that re-executes goes on in that mode (R370, R375). -/
def State.resumeHalted (s : State) (g : Nat) : State :=
  if !(s.gang g).halted then s
  else
    let s := (s.gang g).warps.foldl (fun s u => s.updWarp u Warp.goOn) s
    let s := s.updGang g (fun x => { x with halted := false })
    if s.frozen g then s else s.runLive g

/-- The logs and points of a gang are discarded; what it has re-executed to is its state (R371). -/
def State.dropReplay (s : State) (g : Nat) : State :=
  { s.updGang g (fun x => { x with rerun := none, pendStop := none, logBytes := 0 }) with history := s.history.erase g, logs := s.logs.erase g }

/-- The debug right of a context ends (R371). -/
def State.endRight (s : State) (ck : Nat) : State :=
  if !s.attached ck then s
  else
    let gs := s.gangsOfCtx ck
    let s := gs.foldl State.dropReplay s
    let s := gs.foldl State.resumeHalted s
    let s := { s with launches := s.launches.mapVals (fun _ l => if ctxKey l.part l.ctx == ck then { l with haltNew := false } else l) }
    let s := s.updDbg ck (fun d => { d with
      watches := d.watches.mapVals (fun _ x => { x with ctl := x.ctl &&& 0x7FFFFFFF#32 })
      breaks := d.breaks.mapVals (fun _ x => { x with enabled := false }) })
    (s.dbgEvent (ck / 64) (ck % 64) 6 0#32 s.nextUid 0#32).updDbg ck (fun d => { d with session := none })

/-- DEBUG_RIGHT_END (R360, R371). -/
def execDebugRightEnd (ctx : Nat) (s : State) : Out := .next (s.endRight ctx)

/-! ### Commands of the debugger (R364 to R370) -/

/-- A command to a gang of a context that is debugged; else it does nothing. -/
def State.dbgGang (s : State) (g : Nat) (k : Nat → State) : State :=
  let x := s.gang g
  let ck := ctxKey x.part x.ctx
  if s.attached ck && x.place != .absent && x.place != .retired then k ck else s

/-- HALT (R364). -/
def execHalt (gang : Nat) (s : State) : Out := .next (s.dbgGang gang (fun _ => s.haltGang gang))

/-- The point after the next step of a re-executing gang, and the warp that commits it: none where it first halted. -/
def State.nextSnap (s : State) (g : Nat) : Option (Snap × Nat) :=
  ((s.history.get g).find? (fun y => pointBefore (s.gang g).point (y.interval, y.count) && y.count != 0)).map (fun y =>
    (y, ((s.gang g).warps.find? (fun u => some (s.warp u).wid == y.gang.lastCommit)).getD 0))

/-- The lowest watchpoint that a re-executed step hits: its index, the lowest such lane's address, the lanes, the broadcast (R363). -/
def State.rerunHit (s : State) (ck : Nat) (accs : List StepAcc) : Option (Nat × Word × Mask × Bool) :=
  if !s.attached ck then none
  else firstSome (fun k =>
    let x := (s.ctx ck).dbg.watches.get k
    let hit := accs.filter (fun a => x.touches a.space a.bit a.va a.len)
    match hit with
    | [] => none
    | a :: _ => some (k, BitVec.ofNat 32 a.ea, Mask.ofFn (fun l => hit.any (fun b => b.lane == l)), x.ctl.getLsbD 23)) (List.range 8)

/-- What stops a re-executing gang before its next step: a breakpoint at it, or a watchpoint that it hits (R362, R363, R375). -/
def State.rerunStop (s : State) (y : Snap) (u : Nat) : Option State :=
  let w := s.warp u
  let ck := s.ckOf w
  let pc := w.issuePc.getD 0#32
  if s.deliveryClass w cBREAKPOINT == .debug && s.breakAt ck w.sp.kwslot pc then
    some (s.debugStop u cBREAKPOINT pc pc 0xFFFFFFFF#32 w.issueSet 3 false)
  else if s.deliveryClass w cWATCHPOINT != .debug then none
  else (s.rerunHit ck y.accs).map (fun h => s.debugStop u cWATCHPOINT pc h.2.1 (BitVec.ofNat 32 h.1) h.2.2.1 (1 + 512 * h.1) h.2.2.2)

/-- The gang takes a step that it took before; where it first halted it is live again. -/
def State.rerunTo (s : State) (g : Nat) (y : Snap) : State :=
  if (y.interval, y.count) == (s.gang g).present then s.goLive g
  else
    let s := s.restoreSnap g y
    if (s.nextSnap g).isNone then s.goLive g else s

/-- One step of a re-executing gang at the debugger's command (R369, R375): the warp that committed next in the first run; any other
commits nothing. -/
def State.rerunStep (s : State) (u : Nat) : State :=
  let g := (s.warp u).gang
  match s.nextSnap g with
  | none => s
  | some (y, v) =>
    if v != u then s
    else match s.rerunStop y u with
      | some t => t
      | none =>
        let s := (s.rerunTo g y).markStops g
        s.debugStop u cSINGLE_STEP ((s.warp u).issuePc.getD 0#32) 0#32 0#32 (s.warp u).issueSet 4 false

/-- Does a gang go on re-executing? -/
def State.rerunDue (s : State) (g : Nat) : Bool := s.frozen g && !(s.gang g).halted && (s.gang g).pendStop.isNone

/-- A gang that has been resumed re-executes its next step (R375). -/
def State.rerunNext (s : State) (g : Nat) : State :=
  if !s.rerunDue g then s
  else match s.nextSnap g with
    | none => (s.goLive g).runLive g
    | some (y, u) => match s.rerunStop y u with
      | some t => t
      | none =>
        let s := s.rerunTo g y
        if s.frozen g then s else s.runLive g

/-- STEP (R369): the warp may commit one step; in a wait, or where another warp of a replay gang is next, nothing commits. -/
def execStep (warp : Nat) (s : State) : Out :=
  let w := s.warp warp
  .next (s.dbgGang w.gang (fun _ =>
    let x := s.gang w.gang
    if !w.live || !x.halted then s
    else if x.rerun.isSome && (s.nextSnap w.gang).isSome then s.rerunStep warp
    else
    let s := s.goLive w.gang
    let w := s.warp warp
    let x := s.gang w.gang
    if w.runnable = 0#32 || w.wait != .ready || x.place != .resident || ((s.launch x.launch).replay && s.replayNext w.gang != some warp) then s
    else s.updWarp warp (fun w => { w.goOn with stepping := true })))

/-- RESUME (R370, R375). -/
def execResume (gang : Nat) (s : State) : Out := .next (s.dbgGang gang (fun _ => s.resumeHalted gang))

/-- The write queues and heap units apply what the gang has queued, so that its replies hold their values. -/
def State.flushGang (s : State) (g : Nat) : State :=
  let s := s.drainTo ((s.portOps.filter (fun e => e.2.live && e.2.gang == g)).map (·.1))
  (s.heapQ.filter (fun e => e.2.any (fun o => o.gang == g))).foldl (fun s e => (List.range e.2.length).foldl (fun s _ => if s.heapDue e.1 then s.heapApply e.1 else s) s) s

/-- Event 5 (R365, R375). (DEDUCED, log 60: unsafe.) -/
def State.replayStop (s : State) (ck g : Nat) : State :=
  let pc := match s.replayNext g with
    | some u => (s.warp u).issuePc.getD 0#32
    | none => 0#32
  s.dbgEvent (ck / 64) (ck % 64) 5 pc g 0#32

/-- The snapshot that a point names. -/
def State.snapAt (s : State) (g : Nat) (pt : Nat × Nat) : Option Snap := (s.history.get g).find? (fun y => (y.interval, y.count) == pt)

/-- A halted gang at its boundary is brought back to a point and re-executed to it; the point where it first halted is kept. (DESIGN CHOICE, log 59: unsafe.) -/
def State.rollback (s : State) (g : Nat) (pt : Nat × Nat) : State :=
  let x := s.gang g
  let ck := ctxKey x.part x.ctx
  let now := x.present
  let s := s.updGang g (fun x => { x with pendStop := none })
  if pt == now then ((s.goLive g).markStops g).replayStop ck g
  else match s.snapAt g pt with
    | none => s.dbgError ck true
    | some y =>
      let s := if x.rerun.isSome then s
        else
          let s := s.flushGang g
          { s with history := s.history.upd g (fun l => l ++ [s.snapOf g []]) }.updGang g (fun x => { x with rerun := some now })
      ((s.restoreSnap g y).markStops g).replayStop ck g

/-- May the gang be rolled back now: no step that has performed is still to commit? -/
def State.rollbackDue (s : State) (g : Nat) : Bool := (s.gang g).pendStop.isSome && s.atBoundary g

/-- A STOPAT that waited goes on. -/
def State.rollbackNow (s : State) (g : Nat) : State :=
  match (s.gang g).pendStop with
  | some pt => if s.atBoundary g then s.rollback g pt else s
  | none => s

/-- STOPAT (R375): refused for a point outside the two intervals kept or beyond the present one; else the gang halts, and a step that
has performed commits first. -/
def execStopat (gang interval count : Nat) (s : State) : Out :=
  .next (s.dbgGang gang (fun ck =>
    let x := s.gang gang
    let now := x.present
    let pt := (interval, count)
    if !(s.launch x.launch).replay || !(interval == now.1 || interval + 1 == now.1) || pointBefore now pt
      || (pt != now && (s.snapAt gang pt).isNone) then s.dbgError ck true
    else
      let s := (s.dbgError ck false).haltGang gang
      if s.atBoundary gang then s.rollback gang pt else s.updGang gang (fun x => { x with pendStop := some pt })))

/-- REPLAY_CHECKPOINT (R374). -/
def execReplayCheckpoint (gang : Nat) (s : State) : Out :=
  .next (if s.checkpointDue gang && !s.midStep gang then s.checkpoint gang else s)

/-! ### Edits (R368) -/

/-- One special register as the debugger writes it. -/
def Warp.editSr (w : Warp) (n : Nat) (x : Word) : Warp :=
  match n with
  | 0x04 => { w with sp := { w.sp with steps := w.sp.steps / 2 ^ 32 * 2 ^ 32 + x.toNat } }
  | 0x05 => { w with sp := { w.sp with stepsHi := x } }
  | 0x07 => { w with sp := { w.sp with phcNs := x } }
  | 0x08 => { w with sp := { w.sp with phcSec := x } }
  | 0x09 => { w with sp := { w.sp with phcSech := x &&& 0xFFFF#32 } }
  | 0x0C => { w with bound := 0, sp := { w.sp with kwslot := x.toNat % 16 } }
  | _ => w.writeSr n x

/-- The gang that an edit is about. -/
def State.editGang (s : State) : EditTarget → Nat
  | .vreg u _ _ _ | .sreg u _ _ | .special u _ _ | .vpc u _ _ | .tag u _ _ _ _ _ | .mode u _ | .held u _ | .rstateU u _ _ _
  | .rstateS u _ _ _ _ _ _ | .waitSet u _ _ | .wait u _ | .batch u _ _ | .group u _ => (s.warp u).gang
  | .barrier g _ _ _ _ _ _ | .gangMem g _ _ => g

/-- The modes as the debugger numbers them. -/
def Mode.num : Mode → Nat
  | .normal => 0 | .emu => 1 | .user => 2 | .sup => 3
def Mode.ofNum : Nat → Mode
  | 0 => .normal | 1 => .emu | 2 => .user | _ => .sup

/-- Is a wait as the debugger writes it in range? -/
def waitEditOk : WaitEdit → Bool
  | .none | .line _ => true
  | .barrier b _ _ _ => b < 32
  | .jwait p d _ _ => p < 4096 && d < 512
  | .sleep sec ns => sec < 2 ^ 32 && ns < 1000000000

/-- The wait that the debugger writes, for a warp of context `ck`. -/
def waitOfEdit (ck : Nat) : WaitEdit → Wait
  | .none => .ready
  | .line k => .line k
  | .barrier b m ph e => .barrier b m ph e
  | .jwait p d m e => .jwait (patKey ck p) d m e
  | .sleep sec ns => .sleep sec ns

/-- The pattern that a wait registers with. -/
def Wait.pat : Wait → Option Nat
  | .jwait p _ _ _ => some p
  | _ => none

/-- A warp whose waits have been written is registered with the armed patterns that they name, and with no other (R313). -/
def State.reregister (s : State) (u : Nat) : State :=
  let s := s.unlist u
  let ps := ([(s.warp u).wait, (s.warp u).rsS.wait].filterMap Wait.pat).filter (fun p => (s.pat p).armed)
  ps.foldl (fun s p => s.updPat p (fun x => { x with waiters := x.waiters ++ [u] })) s

/-- Waiting sets from their twelve words. -/
def setsOf (xs : List Word) : Map Mask := (xs.zipIdx).foldl (fun (m : Map Mask) x => m.set x.2 x.1) []

/-- Does the edit name something that the gang has? -/
def State.editOk (s : State) : EditTarget → Bool
  | .vreg u r _ xs => (s.warp u).live && r < (s.warp u).vbudget && xs.length == 32
  | .sreg u r _ => (s.warp u).live && (s.warp u).scalNamed r
  | .special u n _ => (s.warp u).live && n < 0x27
  | .vpc u l _ => (s.warp u).live && l < 32
  | .tag u vec r l c _ => (s.warp u).live && c < 256 && (if vec then r < (s.warp u).vbudget && l < 32 else (s.warp u).scalNamed r)
  | .mode u m => (s.warp u).live && m < 4
  | .held u _ => (s.warp u).live
  | .rstateU u m k _ => (s.warp u).live && m < 4 && k < 16
  | .rstateS u xs m k _ t sets => (s.warp u).live && xs.length == 5 && m < 4 && k < 16 && waitEditOk t && sets.length == 12
  | .waitSet u k _ => (s.warp u).live && k < 12
  | .wait u t => (s.warp u).live && waitEditOk t
  | .batch u b _ => (s.warp u).live && b ≤ 16
  | .group u q => (s.warp u).live && 1 ≤ q && q ≤ 8
  | .barrier _ b _ _ _ _ _ => b < 32
  | .gangMem g n b => 16 * n < (s.gang g).gangSize && b.length == 16

/-- The write of an edit. -/
def State.edit (s : State) : EditTarget → State
  | .vreg u r m xs => s.updWarp u (fun w => w.setVs r m xs)
  | .sreg u r x => s.updWarp u (fun w => w.setS r x)
  | .special u n x => s.updWarp u (fun w => w.editSr n x)
  | .vpc u l x => s.updWarp u (fun w => w.setVpc (Mask.single l) (fun _ => x))
  | .tag u vec r l c a => s.updWarp u (fun w => if vec then w.tagV r l { cause := c, addr := a } else w.tagS r { cause := c, addr := a })
  | .mode u m => s.updWarp u (fun w => { w with mode := .ofNum m })
  | .held u m => s.updWarp u (fun w => { w with held := m })
  | .rstateU u m k h => s.updWarp u (fun w => { w with rsU := { mode := .ofNum m, kwslot := k, held := h } })
  | .rstateS u xs m k h t sets =>
    let x (i : Nat) : Word := xs.getD i 0#32
    (s.updWarp u (fun w => { w with rsS := { tcause := x 0, tpc := x 1, taddr := x 2, tmask := x 3, tinfo := x 4, mode := .ofNum m, kwslot := k,
                                             held := h, wait := waitOfEdit (s.ckOf w) t, wsets := setsOf sets } })).reregister u
  | .waitSet u k m => s.updWarp u (fun w => { w with wsets := w.wsets.set k m })
  | .wait u t => ((s.unpark u).updWarp u (fun w => { w with wait := waitOfEdit (s.ckOf w) t, age := none, rejKind := 0 })).reregister u
  | .batch u b xs =>
    let cs := xs.map (fun x => ({ copy := x.1, done := x.2.1, flags := x.2.2.1, cause := x.2.2.2.1, seq := x.2.2.2.2 } : CopyRef))
    s.updWarp u (fun w => if b = 0 then { w with unsealed := cs } else { w with batches := w.batches.set (b - 1) cs })
  | .group u q => s.updWarp u (fun w => { w with q := q })
  | .barrier g b c a bal ph br => s.updBarrier g b (fun y => { y with count := c % 2 ^ 16, arrived := a % 2 ^ 16, balance := bal, phase := ph, broken := br })
  | .gangMem g n b => { s with poisonUnit := s.poisonUnit.set (gangLoc g (16 * n) / 16) false }.setBytes (gangLoc g (16 * n)) b

/-- Does an edit add to DBGEDITS: one of a register, a barrier or a 16-byte unit of gang memory (R368)? (DESIGN CHOICE, log 84: safe.) -/
def editCounts : EditTarget → Bool
  | .vreg .. | .sreg .. | .special .. | .vpc .. | .barrier .. | .gangMem .. => true
  | .tag .. | .mode .. | .held .. | .rstateU .. | .rstateS .. | .waitSet .. | .wait .. | .batch .. | .group .. => false

/-- DEBUGGER_EDIT (R368): of a halted gang that does not re-execute (R375); DBGEDITS counts it. -/
def execDebuggerEdit (target : EditTarget) (s : State) : Out :=
  let g := s.editGang target
  .next (s.dbgGang g (fun ck =>
    if !(s.gang g).halted || s.frozen g || !s.editOk target then s.dbgError ck true
    else ((s.edit target).dbgError ck false).updDbg ck (fun d => { d with edits := if editCounts target then min (d.edits + 1) 0xFFFFFFFF else d.edits })))

/-- A wait as the debugger reads it: its kind and its parts. -/
def Wait.words : Wait → List Word
  | .line k => [1#32, BitVec.ofNat 32 k]
  | .barrier b m ph e => [2#32, BitVec.ofNat 32 b, m, ph, e]
  | .jwait p d m e => [3#32, BitVec.ofNat 32 (p % 4096), BitVec.ofNat 32 d, m, e]
  | .sleep sec ns => [4#32, BitVec.ofNat 32 sec, BitVec.ofNat 32 ns]
  | _ => [0#32]

/-- The copies of a set as the debugger reads them. -/
def copyWords (cs : List CopyRef) : List Word :=
  cs.flatMap (fun c => [BitVec.ofNat 32 c.copy, BitVec.ofNat 32 c.done.toNat, BitVec.ofNat 32 c.flags, BitVec.ofNat 32 c.cause, c.seq])

/-- An item of R351 as words (R368). (DESIGN CHOICE, log 84: safe.) -/
def State.itemWords (s : State) : EditTarget → List Word
  | .vreg u r _ _ => (List.range 32).map ((s.warp u).vword r)
  | .sreg u r _ => [(s.warp u).sword r]
  | .special u n _ => [({ s with actor := u }).specialReg n]
  | .vpc u l _ => [(s.warp u).vpcAt l]
  | .tag u vec r l _ _ =>
    let t := if vec then (s.warp u).regs.vtag.get (32 * r + l) else (s.warp u).regs.stag.get r
    [BitVec.ofNat 32 t.cause, t.addr]
  | .mode u _ => [BitVec.ofNat 32 (s.warp u).mode.num]
  | .held u _ => [(s.warp u).held]
  | .rstateU u _ _ _ => let x := (s.warp u).rsU; [BitVec.ofNat 32 x.mode.num, BitVec.ofNat 32 x.kwslot, x.held]
  | .rstateS u _ _ _ _ _ _ =>
    let x := (s.warp u).rsS
    [x.tcause, x.tpc, x.taddr, x.tmask, x.tinfo, BitVec.ofNat 32 x.mode.num, BitVec.ofNat 32 x.kwslot, x.held]
      ++ (List.range 12).map x.wsets.get ++ x.wait.words
  | .waitSet u k _ => [(s.warp u).wsets.get k]
  | .wait u _ => (s.warp u).wait.words
  | .batch u b _ => copyWords (if b = 0 then (s.warp u).unsealed else (s.warp u).batches.get (b - 1))
  | .group u _ => [BitVec.ofNat 32 (s.warp u).q]
  | .barrier g b _ _ _ _ _ =>
    let x := (s.gang g).barrier b
    [BitVec.ofNat 32 x.count, BitVec.ofNat 32 x.arrived, BitVec.ofInt 32 x.balance, x.phase, BitVec.ofNat 32 x.broken.toNat]
  | .gangMem g n _ => (List.range 4).map (fun i => BitVec.ofNat 32 (s.read (gangLoc g (16 * n + 4 * i)) 4))

/-- The debugger reads an item of a halted gang (R368). -/
def execDebugRead (target : EditTarget) (s : State) : Out :=
  let g := s.editGang target
  .next (s.dbgGang g (fun ck =>
    if !(s.gang g).halted then s.dbgError ck true
    else (s.updDbg ck (fun d => { d with read := s.itemWords target })).dbgError ck false))

/-! ### Watchpoints and breakpoints (R362) -/

/-- Is a watchpoint's pair of words malformed? (DEDUCED, log 58: safe.) -/
def watchBad (addr : DWord) (ctl : Word) : Bool :=
  let c := ctl.toNat
  let n := c / 2 ^ 16 % 32
  c % 2 ^ 10 != 0 || c / 2 ^ 21 % 4 != 0 || 16 < n || addr.toNat % 2 ^ n != 0 || 4 < c / 2 ^ 28 % 8

/-- WATCHPOINT_WRITE (R362). (DEDUCED, log 58: safe.) -/
def execWatchpointWrite (ctx index : Nat) (addr : DWord) (ctl : Word) (s : State) : Out :=
  .next (
    if !s.attached ctx || 8 ≤ index then s
    else if watchBad addr ctl then
      (s.updDbg ctx (fun d => { d with watches := d.watches.upd index (fun x => { x with ctl := x.ctl &&& 0x7FFFFFFF#32 }) })).dbgError ctx true
    else (s.updDbg ctx (fun d => { d with watches := d.watches.set index { addr := addr, ctl := ctl } })).dbgError ctx false)

/-- BREAKPOINT_WRITE (R362). -/
def execBreakpointWrite (ctx index : Nat) (addr : Word) (slot : Nat) (enabled : Bool) (s : State) : Out :=
  .next (
    if !s.attached ctx || 8 ≤ index || 16 ≤ slot then s
    else s.updDbg ctx (fun d => { d with breaks := d.breaks.set index { enabled := enabled, addr := addr, slot := slot } }))

/-! ### What the debugger reads (R367, R377) -/

/-- The eight words of a stop record (R367). -/
def StopRec.words (r : StopRec) : List Word :=
  [BitVec.ofNat 32 (r.cause % 256), r.tpc, r.tmask, r.taddr, r.tinfo, BitVec.ofNat 32 r.skid, BitVec.ofNat 32 r.sint, BitVec.ofNat 32 r.scount]

/-- STOP_RECORD_READ (R367): of a stopped warp. -/
def execStopRecordRead (warp : Nat) (s : State) : Out :=
  let w := s.warp warp
  .next (s.dbgGang w.gang (fun ck =>
    if w.live && w.stopRec.valid then (s.updDbg ck (fun d => { d with stop := w.stopRec.words })).dbgError ck false
    else s.dbgError ck true))

/-- The five counters of a bin, in the order of the classes. -/
def Bin.counts (b : Bin) : List Nat := [b.absent, b.masked, b.predOff, b.active, b.idle]

/-- LANE_CYCLE_READ (R377): all 80 counters as one snapshot. -/
def execLaneCycleRead (ctx : Nat) (s : State) : Out :=
  .next (if (s.ctx ctx).live then s.updDbg ctx (fun d => { d with counters := (List.range 16).flatMap (fun k => (d.bins.get k).counts) }) else s)

/-- LANE_CYCLE_CLEAR (R377). -/
def execLaneCycleClear (ctx : Nat) (s : State) : Out :=
  .next (if (s.ctx ctx).live then
    s.updDbg ctx (fun d => { d with bins := d.bins.mapVals (fun _ b => { b with active := 0, predOff := 0, masked := 0, absent := 0, idle := 0 }) }) else s)

end Sys2Proof.Machine
end

