-- ==== Sys2Proof/Machine/Keyways.lean ====
section
/-! DEFINITION. The keyway instructions and the checks of an image (R65 to R70, R79 to R83), and the status write of the supervisor
operations (R82, R407). -/
set_option autoImplicit false

namespace Sys2Proof.Machine

/-! ### The image's checks (R65 to R69) -/

/-- A refusal of an image: its reason and the image offset of the offending structure (R83). -/
abbrev Offence := Nat × Nat

def imgLen (img : List Byte) : Nat := imgNat img 0x2C 4
def imgRules (img : List Byte) : Nat := imgNat img 0x18 4
def imgPats (img : List Byte) : Nat := imgNat img 0x1C 4
def imgPlanes (img : List Byte) : Nat := imgNat img 0x20 4
def imgTmpls (img : List Byte) : Nat := imgNat img 0x24 4
def imgRecs (img : List Byte) : Nat := imgNat img 0x28 4
def imgNrules (img : List Byte) : Nat := imgNat img 0x10 1
def imgNplanes (img : List Byte) : Nat := imgNat img 0x11 1
def imgNpats (img : List Byte) : Nat := imgNat img 0x12 2
def imgNtmpls (img : List Byte) : Nat := imgNat img 0x14 2
def imgNops (img : List Byte) : Nat := imgNat img 0x16 2
def imgEmuvec (img : List Byte) : Nat := imgNat img 0x0C 4

/-- The five sections: offset and length. -/
def imgSections (img : List Byte) : List (Nat × Nat) :=
  [(imgRules img, 8 * imgNrules img), (imgPats img, 64 * imgNpats img), (imgPlanes img, 6144 * imgNplanes img),
   (imgTmpls img, 4 * imgNtmpls img), (imgRecs img, 16 * imgNops img)]

/-- Do two sections share a byte? -/
def sectionsMeet (a b : Nat × Nat) : Bool := a.2 != 0 && b.2 != 0 && a.1 < b.1 + b.2 && b.1 < a.1 + a.2

/-- No section meets a later one. -/
def sectionsApart : List (Nat × Nat) → Bool
  | [] => true
  | a :: r => r.all (fun b => !sectionsMeet a b) && sectionsApart r

/-- The header's rules (R65); `limit` is the length operand. Only the bytes of a section must lie within IMAGE_LEN: one without any may
stand at any offset. (DEDUCED, log 76: unsafe.) -/
def imgHeaderOk (img : List Byte) (limit : Nat) : Bool :=
  let lengths := imgNat img 6 1
  let width := imgWidth img
  let n := imgLen img
  imgNat img 0 4 == 0x5941574B && imgNat img 4 2 == 1 && lengths != 0 && lengths < 16
  && (width == 8 || width == 16 || width == 32) && imgGen img != 0 && imgEmuvec img % 8 == 0
  && 1 ≤ imgNrules img && imgNrules img ≤ 8 && 1 ≤ imgNplanes img && imgNplanes img ≤ 4 && 1 ≤ imgNpats img && imgNpats img ≤ 64
  && imgNtmpls img ≤ 4095 && imgNops img ≤ 8192 && imgNat img 0x30 16 == 0
  && 64 ≤ n && n ≤ limit && n ≤ 176252
  && (imgSections img).all (fun x => x.1 % 8 == 0 && (x.2 == 0 || x.1 + x.2 ≤ n)) && sectionsApart (imgSections img)

/-- The first offence of a list of places. -/
def offenceAt (reason : Nat) (n : Nat) (at_ : Nat → Nat) (bad : Nat → Bool) : Option Offence :=
  ((List.range n).find? bad).map (fun i => (reason, at_ i))

/-- A length rule breaks R66. -/
def ruleBad (img : List Byte) (i : Nat) : Bool :=
  let r := imgNat img (imgRules img + 8 * i) 8
  r / 2 ^ 34 != 0 || Nat.land (r / 2 ^ 16 % 65536) (65535 - r % 65536) != 0 || imgNat img 6 1 / 2 ^ (r / 2 ^ 32 % 4) % 2 == 0

/-- Field `k` of the image's patterns, eight to a pattern. -/
def imgDesc (img : List Byte) (k : Nat) : Nat := imgNat img (imgPats img + 8 * k) 8

/-- A field descriptor breaks R67. -/
def descBad (img : List Byte) (k : Nat) : Bool :=
  let d := imgDesc img k
  let width := d / 64 % 64
  let kind := d / 2 ^ 12 % 8
  let guard := d / 2 ^ 19 % 2 == 1
  32 < width || 64 < d % 64 + width || 6 ≤ kind || (guard && kind != 4) || d / 2 ^ 20 % 4096 != 0
  || (guard && (List.range (k % 8)).any (fun j => imgDesc img (k - k % 8 + j) / 2 ^ 19 % 2 == 1))

/-- A plane entry breaks R68. -/
def planeBad (img : List Byte) (k : Nat) : Bool :=
  let off := imgPlanes img + 24 * k
  let mask := imgNat img off 8
  let value := imgNat img (off + 8) 8
  let c := imgNat img (off + 16) 8
  let tmpl := c % 4096
  c / 2 ^ 23 % 2 == 1
  && (Nat.land value (2 ^ 64 - 1 - mask) != 0 || imgNpats img ≤ c / 2 ^ 16 % 64 || (tmpl != 0xFFF && imgNtmpls img ≤ tmpl)
      || c / 2 ^ 24 != 0 || c / 2 ^ 22 % 2 == 1)

/-- The offence of a template entry, or of a record whose E bit is wrong for it (R69). -/
def tmplOffence (img : List Byte) (k : Nat) : Option Offence :=
  let t := imgNat img (imgTmpls img + 4 * k) 4
  let first := t % 8192
  let count := t / 2 ^ 13 % 8
  if t / 2 ^ 16 != 0 || imgNops img ≤ first + count then some (9, imgTmpls img + 4 * k)
  else offenceAt 9 (count + 1) (fun j => imgRecs img + 16 * (first + j))
    (fun j => (imgNat img (imgRecs img + 16 * (first + j)) 8 / 2 ^ 53 % 2 == 1) != (j == count))

/-- An operation record breaks R69: reserved bytes, a nibble of 9 to 15, a nibble on a reserved slot. A word of a reserved opcode has no
slots to check. (DEDUCED, log 77: unsafe.) -/
def recBad (img : List Byte) (k : Nat) : Bool :=
  let off := imgRecs img + 16 * k
  let w := imgNat img off 8
  let sub := imgNat img (off + 8) 2
  imgNat img (off + 10) 6 != 0
  || [12, 8, 4, 0].zipIdx.any (fun x =>
      let nib := sub / 2 ^ x.1 % 16
      8 < nib || (nib != 0 && match formOf (w / 2 ^ 54) with
        | none => false
        | some fm => ((subSlots fm).getD x.2 none).isNone))

/-- The offence that is reported of an image whose header stands (R66 to R69): the first of length rules, patterns, planes, templates with the
E bits of their records, records. R83 gives no order among several. (DESIGN CHOICE, log 91: unsafe.) -/
def imgOffence (img : List Byte) : Option Offence :=
  (offenceAt 7 (imgNrules img) (fun i => imgRules img + 8 * i) (ruleBad img)).or
  ((offenceAt 8 (8 * imgNpats img) (fun k => imgPats img + 8 * k) (descBad img)).or
  ((offenceAt 7 (256 * imgNplanes img) (fun k => imgPlanes img + 24 * k) (planeBad img)).or
  ((firstSome (tmplOffence img) (List.range (imgNtmpls img))).or
   (offenceAt 9 (imgNops img) (fun k => imgRecs img + 16 * k) (recBad img)))))

/-! ### Reading an image (R78, R82) -/

/-- The pages of a range of the code window. -/
def rangePages (va n : Nat) : List Nat := (List.range ((va + n - 1) / 65536 - va / 65536 + 1)).map (va / 65536 + ·)

/-- Read a range of the code window as KWLOAD does: every page translates with X, and is verified. -/
def State.readCode (s : State) (p c va n : Nat) : Fetched :=
  let pages := rangePages va n
  let at_ (pg : Nat) : Nat := if pg = va / 65536 then va else pg * 65536
  let state (pg : Nat) : CodePage := (s.ctx (ctxKey p c)).codePages.get (pg % 65536)
  match firstSome (fun pg => match s.translate p c .code .fetch true (at_ pg) with
      | .cause k => some (k, at_ pg)
      | .ok _ _ => none) pages with
  | some (k, a) => .cause k (BitVec.ofNat 32 a)
  | none =>
    match pages.find? (fun pg => state pg == .failed), pages.find? (fun pg => state pg == .unverified) with
    | some pg, _ => .cause cCODE_INTEGRITY (BitVec.ofNat 32 (pg * 65536))
    | none, some pg => .park (pg % 65536)
    | none, none => .ok (((pages.flatMap (fun pg =>
        let a := at_ pg
        let len := min (va + n) (pg * 65536 + 65536) - a
        match s.translate p c .code .fetch true a with
        | .ok loc _ => s.bytes loc len
        | .cause _ => []))))

/-- The code object that holds a code-window address (R394): its number, 15 for the supervisor's. -/
def objOf (va : Nat) : Nat := va / 2 ^ 28

/-- KEYWAY_INVALID with a reason and TADDR. -/
def State.keywayBad (s : State) (reason at_ : Nat) : State :=
  s.raise cKEYWAY_INVALID (BitVec.ofNat 32 at_) (BitVec.ofNat 32 reason) s.me.step.issue

/-- Read and check an image, then `k` (R82). An image that reaches beyond its code object offends where the object ends. (DESIGN CHOICE, log 75: unsafe.) -/
def State.withImage (s : State) (va len : Nat) (k : List Byte → State) : State :=
  let w := s.me
  let g := s.gangOf w
  let m := w.step.issue
  let objLen := (s.ctx (s.ckOf w)).objLen.get (objOf va)
  let fail (f : Fetched) : State := match f with
    | .cause c a => s.raise c a (if c = cCODE_INTEGRITY then 0#32 else memInfo 0 0 (lowest m) w.step.idx 0) m
    | .park pg => s.park (.code (s.ckOf w) pg)
    | .ok _ => s
  if objLen < va % 2 ^ 28 + len then s.keywayBad 11 (objLen - va % 2 ^ 28)
  else if len < 64 then s.keywayBad 6 0
  else match s.readCode g.part g.ctx va 64 with
    | .ok h =>
      let n := imgLen h
      if n < 64 || len < n || 176252 < n then s.keywayBad 6 0
      else match s.readCode g.part g.ctx va n with
        | .ok img =>
          if !imgHeaderOk img len then s.keywayBad 6 0
          else match imgOffence img with
            | some (r, a) => s.keywayBad r a
            | none => k img
        | f => fail f
    | f => fail f

/-! ### Status writes -/

/-- Put a supervisor operation among those whose status is due, with its destination held (R31, R32). -/
def State.startJob (s : State) (e v : Bool) (d : Nat) (j : Job) : State :=
  let (rep, s) := s.holdScalars d (if v then 0 else 1)
  let (id, s) := s.fresh
  let w := s.me
  let j : Job := { j with live := true, warp := s.actor, gang := w.gang, ck := s.ckOf w, reply := rep }
  { s with jobs := s.jobs.set id j }.finish e (some []) [.reply rep] []

/-- Is the partition's queue of supervisor operations full, or reserved for an older rejected warp? (DESIGN CHOICE, log 24: safe.) -/
def State.jobsFull (s : State) : Bool :=
  s.caps.jobs ≤ (s.jobs.filter (fun e => e.2.ck / 64 == s.partOf s.me)).length || s.olderRejected kENGINE

/-- May the status of a job be written? -/
def State.jobReady (s : State) (id : Nat) : Bool :=
  let j := s.jobs.get id
  j.live && !s.frozen j.gang

/-- Write the status of a job and forget it. -/
def State.endJob (s : State) (id : Nat) : State :=
  let j := s.jobs.get id
  ({ s with jobs := s.jobs.erase id }).scalarsReach j.warp j.reply [j.val]

/-- KEYWAY_STATUS_WRITE (R81, R82). -/
def execKeywayStatusWrite (job : Nat) (s : State) : Out :=
  .next (if (s.jobs.get job).kind == .keyway && s.jobReady job then s.endJob job else s)

/-! ### The keyway instructions (R82) -/

/-- The legacy width of a slot: 32 for slot 0. -/
def State.slotWidth (s : State) (p n : Nat) : Nat := if n = 0 then 32 else imgWidth ((s.part p).slots.get n).image

/-- Is the warp resident? -/
def State.residentWarp (s : State) (w : Warp) : Bool := w.live && ((s.gangOf w).place == .resident || (s.gangOf w).place == .stopping)

/-- Set a keyway slot of a partition. -/
def State.setSlot (s : State) (p n : Nat) (x : KeySlot) : State := s.updPart p (fun q => { q with slots := q.slots.set n x })

/-- KWSEL (R82). -/
def execKwsel (o : NOp) (s : State) : Out :=
  let m := s.me.step.issue
  .next (s.checked (.kwsel o) m (fun s =>
    let w := s.me
    let g := s.gangOf w
    let n := (s.srcW o.s0 0).toNat
    if 15 < n then s.keywayBad 1 0
    else if n != 0 && s.slotForeign g.part g.ctx n then s.keywayBad 2 0
    else if s.slotWidth g.part n != s.slotWidth g.part w.sp.kwslot then s.keywayBad 3 0
    else if m != w.unexited &&& ~~~w.held then s.keywayBad 4 0
    else
      let old := BitVec.ofNat 32 w.sp.kwslot
      s.finish o.e (some (Lanes.splat old)) ((if o.v then [] else [.scal o.d.toNat old]) ++ [.kwsel n]) []))

/-- KWRET (R82). Native code is no slot that it can return to. (DEDUCED, log 78: unsafe.) -/
def execKwret (o : NOp) (s : State) : Out :=
  let m := s.me.step.issue
  .next (s.checked (.kwret o) m (fun s =>
    let w := s.me
    let g := s.gangOf w
    let slot := w.sp.tinfo.toNat / 2 ^ 8 % 16
    let glen := w.sp.tinfo.toNat / 2 ^ 4 % 16
    if w.mode != .emu then s.keywayBad 5 0
    else if m != w.sp.tmask &&& ~~~w.exited then s.keywayBad 4 0
    else if s.slotForeign g.part g.ctx slot then s.keywayBad 2 0
    else
      let s := match o.s0 with
        | .vec r => s.setNext m (fun l => s.me.vword r.toNat l)
        | _ => s.setNext m (fun _ => w.sp.tpc + BitVec.ofNat 32 glen)
      s.finish o.e none [.kwret slot] []))

/-- KWLOAD (R82). -/
def execKwload (o : XOp) (s : State) : Out :=
  let m := s.me.step.issue
  .next (s.checked (.kwload o) m (fun s =>
    let w := s.me
    let g := s.gangOf w
    let blk (k : Nat) : Nat := (w.sword (Src.num o.s0 + k)).toNat
    let n := blk 0
    let va := blk 1
    if n = 0 || 15 < n then s.keywayBad 1 0
    else if va % 64 != 0 then s.keywayBad 12 0
    else s.withImage va (blk 2) (fun img =>
      if s.jobsFull then s.reject kENGINE
      else s.performs o.e (fun s =>
        let s := s.fenced s.actor
        let full := ((s.part g.part).slots.get n).valid
        let s := if full then s
          else s.setSlot g.part n { valid := true, owner := g.ctx, base := BitVec.ofNat 32 (objOf va * 2 ^ 28), image := img }
        s.startJob o.e o.v o.d.toNat { kind := .keyway, val := if full then 1#32 else 0#32 }))))

/-- Make an image current and bind the resident warps of the slot to the old one (R79). -/
def State.swapSlot (s : State) (p n : Nat) (img : List Byte) (base : Word) : State :=
  let ks := (s.part p).slots.get n
  let s := { s with warps := s.warps.mapVals (fun _ w => if s.residentWarp w && s.partOf w == p && w.sp.kwslot == n then { w with bound := n } else w) }
  (s.setSlot p n { ks with image := img, base := base, oldValid := true, oldImage := ks.image, oldBase := ks.base }).dropOld p n

/-- KWSWAP (R82). -/
def execKwswap (o : NOp) (s : State) : Out :=
  let m := s.me.step.issue
  .next (s.checked (.kwswap o) m (fun s =>
    let w := s.me
    let g := s.gangOf w
    let n := (s.srcW o.s0 0).toNat
    let va := (s.srcW o.s1 0).toNat
    if n = 0 || 15 < n then s.keywayBad 1 0
    else s.withImage va (s.srcW o.s2 0).toNat (fun img =>
      let ks := (s.part g.part).slots.get n
      let held := ks.oldValid && s.slotBound g.part n
      let foreign := s.slotForeign g.part g.ctx n
      if !foreign && (imgGen img == imgGen ks.image || (held && imgGen img == imgGen ks.oldImage)) then s.keywayBad 10 0
      else if s.jobsFull then s.reject kENGINE
      else s.performs o.e (fun s =>
        let s := s.fenced s.actor
        let s := if foreign || held then s else s.swapSlot g.part n img (BitVec.ofNat 32 (objOf va * 2 ^ 28))
        s.startJob o.e o.v o.d.toNat { kind := .keyway, val := if foreign then 2#32 else if held then 1#32 else 0#32 }))))

/-- KWINV (R82). -/
def execKwinv (o : NOp) (s : State) : Out :=
  let m := s.me.step.issue
  .next (s.checked (.kwinv o) m (fun s =>
    let g := s.gangOf s.me
    let n := (s.srcW o.s0 0).toNat
    if n = 0 || 15 < n then s.keywayBad 1 0
    else if s.jobsFull then s.reject kENGINE
    else s.performs o.e (fun s =>
      let s := s.fenced s.actor
      let foreign := s.slotForeign g.part g.ctx n
      let used := s.warps.any (fun e => s.residentWarp e.2 && s.ckOf e.2 == ctxKey g.part g.ctx && (e.2.sp.kwslot == n || e.2.bound == n))
      let s := if foreign || used then s else (s.setSlot g.part n {}).dropDecoded g.part n none
      s.startJob o.e o.v o.d.toNat { kind := .keyway, val := if foreign then 2#32 else if used then 1#32 else 0#32 })))

end Sys2Proof.Machine
end

