-- ==== Sys2Proof/Machine/Recovery.lean ====
section
/-! DEFINITION. Errors in checked structures (R354, R355), kills (R357, R358), partition watchdog and reset (R290, R359), wipes (R401),
the record rings (R348). -/
set_option autoImplicit false

namespace Sys2Proof.Machine

/-! ### The management controller's port (R384) -/

/-- The management controller. -/
def State.updMc (s : State) (f : Module → Module) : State := { s with mc := f s.mc }

/-- Answer on the management controller's port. -/
def State.say (s : State) (r : McReply) : State := s.updMc (fun m => { m with out := m.out ++ [r] })

def lifeCode : LifeCycle → Nat
  | .blank => 0 | .factory => 1 | .field => 2 | .fieldDebug => 3 | .retired => 4

/-- Does the management controller take the commands of the port and session at hand (R384)? -/
def Module.admits (m : Module) : Bool :=
  match m.via with
  | .net bothWays client => bothWays && Config.clientEnrolled (lifeCode m.life) client
  | .i3c platform => platform

/-- Carry a request out, or refuse it. -/
def State.command (s : State) (ok : Bool) (k : State → State) : State := if ok then (k s).say .accepted else s.say .refused

/-! ### Wipes (R401, R410) -/

/-- The pages of a partition with an owner, as page numbers of PPA / 65536. -/
def State.pagesOwned (s : State) (p c : Nat) : List Nat :=
  (s.owners.filter (fun e => e.1 / 2 ^ 26 == p && e.2 == c + 1)).map (fun e => e.1 % 2 ^ 26)

/-- Is a section of the partition? -/
def Partition.hasSec (x : Partition) (sec : Nat) : Bool := x.base ≤ sec && sec < x.base + x.nsec

/-! ### Ensembles (R218, R252) -/

/-- A rank leaves an ensemble: it is unregistered, and the collectives of the ensemble that wait for it end as peer aborts. (DEDUCED, log 55: unsafe.) -/
def State.leaveEns (s : State) (e rank : Nat) : State :=
  if !((s.ens.get e).members.get rank).live then s
  else
    let s := { s with
      ens := s.ens.upd e (fun x => { x with members := x.members.set rank {} })
      colls := s.colls.mapVals (fun _ j => if j.live && j.ens == some e then { j with aborted := true } else j) }
    { s with
      launches := s.launches.mapVals (fun _ l => if l.ens == some e && l.rank == rank then { l with ens := none, rank := 0 } else l)
      ens := if (s.ens.get e).members.isEmpty then s.ens.erase e else s.ens }

/-- An ensemble ends: every rank of it is unregistered. (DEDUCED, log 55: unsafe.) -/
def State.endEns (s : State) (e : Nat) : State := ((s.ens.get e).members.keys).foldl (fun s r => s.leaveEns e r) s

/-- A registration ends when every member that is left in it has deregistered (R252). -/
def State.closeEns (s : State) (e : Nat) : State := if (s.ens.get e).members.all (fun m => m.2.left) then s.endEns e else s

/-- The ranks of an ensemble whose launch satisfies `f`. -/
def State.ensRanks (s : State) (f : Launch → Bool) : List (Nat × Nat) :=
  s.ens.flatMap (fun e => (e.2.members.filter (fun m => match m.2.launch with | some n => f (s.launch n) | none => false)).map (fun m => (e.1, m.1)))

/-! ### Killing (R357, R358) -/

/-- A gang ends with all its warps (R260, R330, R358). (DEDUCED, log 45: unsafe.) -/
def State.killGang (s : State) (g : Nat) : State := ((s.liveWarps g).foldl (fun s u => s.retireWarp u) s).dropImage g

/-- GANG_KILL (R358): the gang, or every gang of its launch; a concurrent launch goes whole. -/
def execGangKill (gang : Nat) (launch : Bool) (s : State) : Out :=
  let n := (s.gang gang).launch
  .next (
    if (s.gang gang).place == .absent || (s.gang gang).place == .retired then s
    else if launch || (s.launch n).cls == 0 then
      let s := s.updLaunch n (fun l => { l with gangs := l.started })
      ((s.gangs.filter (fun e => e.2.launch == n && e.2.place != .retired)).map (·.1)).foldl State.killGang s
    else s.killGang gang)

/-- The keys of a table that belong to context `ck`, when `per` numbers make up a context. -/
def ofCtx (per ck k : Nat) : Bool := k / per == ck

/-- What is on its way to the pages of a context performs before the pages are free: held stores, and updates that name them (R192). -/
def State.drainPages (s : State) (pages : List Nat) : State :=
  let hit (x : PortOp) : Bool := x.lanes.any (fun l => pages.contains (l.loc / 65536))
  (s.drainTo ((s.portOps.filter (fun e => e.2.live && hit e.2)).map (·.1))).drainHeld (fun _ => true)

/-- A quadrant without an owner: accumulator and matrix queue are empty (R159). -/
def Quad.clear (q : Quad) : Quad := { q with owner := none, live := 0, rows := [], segPoison := 0, queue := [], lastCk := none }

/-- The accumulators of a context's quadrants, its decoded entries, loop captures and instruction lines go (R357). -/
def State.clearUnits (s : State) (ck : Nat) : State :=
  let x := s.part (ck / 64)
  { s with
    quads := s.quads.mapVals (fun q y =>
      let y := if x.hasSec (quadSection q) && y.owner == some (ck % 64) then y.clear else y
      if y.loopBuf.valid && y.loopBuf.ck == ck then { y with loopBuf := {} } else y)
    clusters := s.clusters.mapVals (fun _ y => { y with dcache := y.dcache.filter (fun t => t.tag.ck != ck), icode := y.icode.keep (fun k _ => k / 2 ^ 25 != ck) }) }

/-- Kill a context (R357): its gangs, launches, engine operations and tables go, its pages and slots are freed, its storage wiped, and
CONTEXT_KILLED is logged. (DEDUCED, log 45: unsafe.) -/
def State.killCtx (s : State) (ck reason : Nat) : State :=
  let p := ck / 64
  let c := ck % 64
  if !(s.ctx ck).live then s
  else
    let s := s.drainPages ((s.pagesOwned p c).map (fun pg => ppaLoc p (65536 * pg) / 65536))
    let s := (s.ensRanks (fun l => ctxKey l.part l.ctx == ck)).foldl (fun s x => (s.leaveEns x.1 x.2).closeEns x.1) s
    let s := s.clearUnits ck
    let gangs := (s.gangs.filter (fun e => ctxKey e.2.part e.2.ctx == ck)).map (·.1)
    let warps := gangs.flatMap (fun g => (s.gang g).warps)
    let s := gangs.foldl (fun s g => s.updGang g (fun x => { x with place := .retired })) s
    let s := (s.pagesOwned p c ++ (s.ctx ck).tabPages ++ gangs.flatMap (fun g => (s.gang g).image)).foldl (fun s pg => s.givePage p pg none) s
    let s := gangs.foldl (fun s g => s.wipeRange (gangLoc g 0) (2 ^ 22)) s
    let s := { s with
      warps := s.warps.keep (fun u _ => !warps.contains u)
      launches := s.launches.mapVals (fun _ l => if ctxKey l.part l.ctx == ck then {} else l)
      history := s.history.keep (fun g _ => !gangs.contains g)
      logs := s.logs.keep (fun g _ => !gangs.contains g)
      outbox := s.outbox.filter (fun e => e.1 / 65536 != ck)
      copies := s.copies.keep (fun _ j => j.ck != ck)
      colls := s.colls.keep (fun _ j => j.ck != ck)
      sends := s.sends.keep (fun _ j => j.ck != ck)
      jobs := s.jobs.keep (fun _ j => j.ck != ck)
      portOps := s.portOps.keep (fun _ x => x.ck != ck)
      acks := s.acks.keep (fun _ x => x.ck != ck)
      heaps := s.heaps.keep (fun k _ => !ofCtx 16 ck k)
      heapQ := s.heapQ.mapVals (fun _ q => q.filter (fun o => !ofCtx 16 ck o.heap))
      ports := s.ports.keep (fun k _ => !ofCtx 65536 ck k)
      pats := s.pats.keep (fun k _ => !ofCtx 4096 ck k)
      remoteFlags := s.remoteFlags.keep (fun k _ => k / 16 != ck)
      tlb := s.tlb.keep (fun k _ => k % 2 ^ 48 / 2 ^ 39 != ck)
      walks := s.walks.keep (fun k _ => k % 2 ^ 58 / 2 ^ 49 != ck)
      ctxs := s.ctxs.erase ck }
    let s := s.updPart p (fun x => { x with
      slots := x.slots.mapVals (fun _ k => if k.valid && k.owner == c then {} else k)
      timers := x.timers.keep (fun _ t => t.ctx != c)
      mailbox := x.mailbox.filter (fun m => m.ctx != c) })
    let s := (List.range 16).foldl (fun s n => s.dropOld p n) s
    s.logPart p cCONTEXT_KILLED (BitVec.ofNat 32 c) (BitVec.ofNat 32 reason)

/-- KILL_REQUEST (R357): reason 1. -/
def execKillRequest (ctx : Nat) (s : State) : Out := .next (s.killCtx ctx 1)

/-- DRIVER_KILL_REQUEST (R357): reason 2. -/
def execDriverKillRequest (ctx : Nat) (s : State) : Out := .next (s.killCtx ctx 2)

/-- A context whose supervisor returned from CODE_INTEGRITY without reloading the page is killed (R78, R357). -/
def State.integrityKill (s : State) (ck : Nat) : State := if (s.ctx ck).unreloaded then s.killCtx ck 4 else s

/-! ### Partition reset (R290, R359) -/

/-- Does a location of a page lie in the supervisor's object? (DEDUCED, log 44: unsafe.) -/
def Partition.supPage (x : Partition) (page : Nat) : Bool := x.supPpa / 65536 ≤ page && 65536 * page < x.supPpa + x.supLen

/-- Reset a partition (R359): its contexts are killed, its storage is wiped but for the supervisor's object, which the control cores
load again, and every reset value returns. (DEDUCED, log 44: unsafe.) -/
def State.resetPart (s : State) (p trigger : Nat) : State :=
  let ended := ((s.ensRanks (fun l => l.part == p)).map (·.1)).eraseDups
  let s := ended.foldl State.endEns s
  let s := ((s.ctxs.filter (fun e => e.1 / 64 == p && e.2.live)).map (·.1)).foldl (fun s k => s.killCtx k 5) s
  let x := s.part p
  let first := ppaLoc p 0
  let sup (loc : Nat) : Bool := x.supPage ((loc - first) / 65536)
  let inside (loc : Nat) : Bool := first ≤ loc && loc < first + 2 ^ 42 && !sup loc
  let s := { s with
    mem := s.mem.keep (fun k _ => !inside k)
    lines := s.lines.keep (fun k _ => !inside (128 * k))
    poisonLine := s.poisonLine.keep (fun k _ => !inside (128 * k))
    owners := s.owners.keep (fun k _ => !inside (65536 * k))
    placed := s.placed.keep (fun k _ => !inside (65536 * k))
    clusters := s.clusters.keep (fun c _ => !x.hasSec (clusterSection c))
    quads := s.quads.keep (fun q _ => !x.hasSec (quadSection q))
    heapQ := s.heapQ.keep (fun sec _ => !x.hasSec sec)
    unitQ := s.unitQ.keep (fun k _ => !x.hasSec k && k != timerUnit p)
    fns := s.fns.set p {} }
  let s := s.updPart p (fun x => { x with seqctr := 0#32, firing := 0, fullAt := 0, madeFor := none, slots := [], timers := [], mailbox := [], pwdog := 0, dump := none })
  s.logPart p cPARTITION_RESET (BitVec.ofNat 32 trigger) 0#32

/-- A reset trigger: it waits for the end of a dump (R385). -/
def State.requestReset (s : State) (p trigger : Nat) : State :=
  if !(s.part p).live then s
  else match (s.part p).dump with
    | some d => s.updPart p (fun x => { x with dump := some { d with trigger := d.trigger.or (some trigger) } })
    | none => s.resetPart p trigger

/-- Clocks of the partition's watchdog period, 1 s (R290). -/
def partClocks : Nat := 1600000000

/-- PARTITION_WATCHDOG_EXPIRY (R290). -/
def execPartitionWatchdogExpiry (part : Nat) (s : State) : Out :=
  .next (if (s.part part).live && partClocks ≤ (s.part part).pwdog then
    (s.updPart part (fun x => { x with pwdog := 0 })).requestReset part 1 else s)

/-- PARTITION_WATCHDOG_RESTART (R290). -/
def execPartitionWatchdogRestart (part : Nat) (s : State) : Out :=
  .next (if (s.part part).live then s.updPart part (fun x => { x with pwdog := 0 }) else s)

/-- RESET (R359, R384): the management controller's command. -/
def execReset (part : Nat) (s : State) : Out := .next (s.command s.mc.admits (fun s => s.requestReset part 3))

/-- FUNCTION_LEVEL_RESET (R242). -/
def execFunctionLevelReset (fn : Nat) (s : State) : Out := .next (s.requestReset fn 2)

/-! ### The record rings (R348) -/

/-- RECORD_CONSUME (R348, R365): the reader of a ring takes its oldest entries. -/
def execRecordConsume (ctx count : Nat) (debug : Bool) (s : State) : Out :=
  .next (
    if debug then s.updCtx ctx (fun c => { c with dbg := { c.dbg with ring := c.dbg.ring.drop count } })
    else s.updCtx ctx (fun c => { c with ring := c.ring.drop count }))

/-! ### Errors (R331, R354, R355) -/

/-- The structure code of a place (R354); 0 for the whole of a context or partition. (DESIGN CHOICE, log 40: safe.) -/
def siteCode : ErrSite → Nat
  | .vreg _ _ _ | .sreg _ _ => 1
  | .acc _ _ => 2
  | .gangMem _ _ => 3
  | .scratch _ _ => 4
  | .hbm _ _ => 5
  | .slot _ _ _ => 6
  | .port _ _ => 7
  | .pattern _ _ => 8
  | .barrier _ _ => 9
  | .heapEntry _ _ _ => 10
  | .timer _ _ => 11
  | .cacheCopy _ => 12
  | .fabric _ => 13
  | .pcie _ _ => 14
  | .wholeContext _ | .partition _ => 0

/-- The partition of a place. -/
def State.sitePart (s : State) : ErrSite → Nat
  | .vreg w _ _ | .sreg w _ | .pcie w _ => s.partOf (s.warp w)
  | .acc q _ => ((s.parts.find? (fun e => e.2.live && e.2.hasSec (quadSection q))).map (·.1)).getD 0
  | .gangMem g _ | .barrier g _ => (s.gang g).part
  | .scratch p _ | .hbm p _ | .timer p _ | .cacheCopy p | .partition p => p
  | .slot c _ _ | .port c _ | .pattern c _ | .heapEntry c _ _ | .wholeContext c => c / 64
  | .fabric _ => 0

/-- A MACHINE_CHECK record of a context, if it lives. -/
def State.machineCheck (s : State) (ck code addr : Nat) : State :=
  if (s.ctx ck).live then s.record (ck / 64) (ck % 64) cMACHINE_CHECK (BitVec.ofNat 32 addr) (BitVec.ofNat 32 code) noUnit noUnit else s

/-- The same for a warp. -/
def State.machineCheckW (s : State) (u code addr : Nat) : State :=
  s.recordWarp (s.warp u) cMACHINE_CHECK (BitVec.ofNat 32 addr) (BitVec.ofNat 32 code)

/-- The context that owns a page of a partition, if one does. -/
def State.pageCtx (s : State) (p ppa : Nat) : Option Nat :=
  let o := s.owner p ppa
  if o < 64 then some (ctxKey p o) else none

/-- Poison the line of a partition-physical address, and record it. -/
def State.poisonPpa (s : State) (p ppa code : Nat) : State :=
  let s := { s with poisonLine := s.poisonLine.set (ppaLoc p ppa / 128) true }
  match s.pageCtx p ppa with
  | some ck => s.machineCheck ck code ppa
  | none => s

/-- Quarantine a port (R293). -/
def State.quarantine (s : State) (k : Nat) : State := s.updPort k (fun x => { x with quar := true })

/-- The clean copies of a partition's caches are dropped, to be fetched again: L1 data and instruction lines, decoded operations, loop captures (R74, R354).
(DESIGN CHOICE, log 40: safe.) -/
def State.refetch (s : State) (p : Nat) : State :=
  let x := s.part p
  { s with
    clusters := s.clusters.mapVals (fun c y => if x.hasSec (clusterSection c) then { y with l1 := [], dcache := [], icode := [] } else y)
    quads := s.quads.mapVals (fun q y => if x.hasSec (quadSection q) then { y with loopBuf := {} } else y) }

/-- The consequence of an uncorrectable error (R331, R354). (DESIGN CHOICE, log 40: safe.) -/
def State.errorAt (s : State) (site : ErrSite) : State :=
  let code := siteCode site
  match site with
  | .vreg u r l =>
    if (s.warp u).live then ((s.logTags u (Mask.single l) cPOISON).updWarp u (fun w => w.tagV r l { cause := cPOISON })).machineCheckW u code r else s
  | .sreg u r =>
    if (s.warp u).live then ((s.logTags u 0#32 cPOISON).updWarp u (fun w => w.tagS r { cause := cPOISON })).machineCheckW u code (512 + r) else s
  | .acc q k =>
    let s := s.updQuad q (fun x => { x with segPoison := x.segPoison ||| 2 ^ (k % 6) })
    (match (s.quad q).owner with
      | some c => s.machineCheck (ctxKey (s.sitePart site) c) code (8 * q + k % 6)
      | none => s)
  | .gangMem g n =>
    let x := s.gang g
    { s with poisonUnit := s.poisonUnit.set (gangLoc g (16 * n) / 16) true }.machineCheck (ctxKey x.part x.ctx) code (16 * n)
  | .scratch p a => s.poisonPpa p a code
  | .hbm p a => s.poisonPpa p a code
  | .slot c n i =>
    let k := portKey c n
    let bad (m : Message × Nat) : Message := if m.2 = i then { m.1 with mflags := m.1.mflags ||| 1 } else m.1
    ((s.updPort k (fun x => { x with msgs := (x.msgs.zipIdx).map bad })).quarantine k).machineCheck c code n
  | .port c n => (s.quarantine (portKey c n)).machineCheck c code n
  | .pattern c n => ((if (s.pat (patKey c n)).armed then s.disarm (patKey c n) else s)).machineCheck c code n
  | .barrier g b =>
    let x := s.gang g
    (s.requestBreak g b 3).machineCheck (ctxKey x.part x.ctx) code b
  | .heapEntry c h i =>
    let k := heapKey c h
    if (s.heaps.get k).entry i == .absent then s
    else
      let s := { s with heaps := s.heaps.upd k (fun x => { x with entries := x.entries.set i .absent, inexact := true }) }
      (s.record (c / 64) (c % 64) cHEAP_INEXACT (BitVec.ofNat 32 h) (BitVec.ofNat 32 i) noUnit noUnit).machineCheck c code h
  | .timer p h =>
    let t := (s.part p).timers.get h
    if !t.live then s else (s.updPart p (fun x => { x with timers := x.timers.set h {} })).machineCheck (ctxKey p t.ctx) code h
  | .cacheCopy p => s.refetch p
  | .fabric l => { s with links := s.links.upd l (fun x => { x with fails := 0, retraining := true }) }
  | .pcie u id =>
    if ((s.warp u).replies.get id).host then
      let a := ((s.warp u).replies.get id).addrs.at 0
      (s.failReply u id cHOST_ABORT Mask.full).machineCheckW u code a.toNat
    else
      let x := s.hostStores.get id
      if !(x.live && x.warp == u) then s
      else
        ({ s with
          hostStores := s.hostStores.erase id
          fns := s.fns.upd (x.ck / 64) (fun f => { f with aer := f.aer + 1 }) }).machineCheck x.ck code x.addr.toNat
  | .wholeContext c =>
    if (s.ctx c).live then
      (s.record (c / 64) (c % 64) cMACHINE_CHECK_FATAL 0#32 0#32 noUnit noUnit).killCtx c 3
    else s
  | .partition p => s.requestReset p 4

/-- UNCORRECTABLE_ERROR (R354); a corrected error only adds to its counter (R355). (DESIGN CHOICE, log 40: safe.) -/
def execUncorrectableError (site : ErrSite) (corrected : Bool) (s : State) : Out :=
  .next (
    if corrected then s.updPart (s.sitePart site) (fun x => { x with corrected := x.corrected.upd (siteCode site) (· + 1) })
    else s.errorAt site)

/-! ### Code pages (R78) -/

/-- CODE_PAGE_VERIFIED (R78): the page is hashed. A failed page of the supervisor's object, which nothing can retry, ends the
context. -/
def execCodePageVerified (ctx page : Nat) (s : State) : Out :=
  let x := s.ctx ctx
  let p := ctx / 64
  .next (
    if !x.live || x.codePages.get page != .unverified then s
    else match s.translateAt controlUnit p (ctx % 64) .code .fetch true (65536 * page) with
      | .cause _ => s
      | .ok loc _ =>
        if Config.sha384 (s.bytes loc 65536) == x.digests.get page then
          s.updCtx ctx (fun c => { c with codePages := c.codePages.set page .verified })
        else
          let s := s.updCtx ctx (fun c => { c with codePages := c.codePages.set page .failed })
          if objOf (65536 * page) = 15 then s.killCtx ctx 4 else s)

end Sys2Proof.Machine
end

