-- ==== Sys2Proof/Machine/Host.lean ====
section
/-! DEFINITION. The host link (R174, R241 to R249), the registers without a row of their own, the PHC and its sources (R250, R380), the
fabric links and ensembles (R251 to R255). -/
set_option autoImplicit false

namespace Sys2Proof.Machine

/-! ### Completions of the host (R174, R247) -/

/-- The lanes of an atomic that a queued operation still has to perform. -/
def PortOp.due (x : PortOp) : Mask := x.lanes.foldl (fun m l => m ||| Mask.single l.lane) 0#32

/-- The queued atomic of a reply. -/
def State.opOf (s : State) (u id : Nat) : Option (Nat × PortOp) := s.portOps.find? (fun e => e.2.live && e.2.warp == u && e.2.reply == some id)

/-- The lanes of a host load or AtomicOp whose completion is due. -/
def State.dueLanes (s : State) (u id : Nat) : Mask :=
  let r := (s.warp u).replies.get id
  let m := match s.opOf u id with
    | some x => x.2.due
    | none => Mask.full
  Mask.ofFn (fun l => m.has l && r.lanes.has l && r.fails.get l == 0)

/-- Has the completion timeout of a reply run out? (DESIGN CHOICE, log 8: unsafe.) -/
def State.hostOverdue (s : State) (u id : Nat) : Bool :=
  let r := (s.warp u).replies.get id
  r.host && s.dueLanes u id != 0#32 && r.at_ + (s.fns.get (s.partOf (s.warp u))).timeout * 8 / 5 ≤ s.clock

/-- HOST_COMPLETION_TIMEOUT (R174, R212): the lanes whose completion is due are poisoned. -/
def execHostCompletionTimeout (warp reply : Nat) (s : State) : Out :=
  .next (
    if (s.warp warp).live && s.hostOverdue warp reply then
      s.failReply warp reply cHOST_ABORT (s.dueLanes warp reply)
    else s)

/-- The host completes some lanes of a load or AtomicOp with an error (R174, R212). An AtomicOp so answered while it is due is not carried
out; one answered with Unsupported Request poisons its words with ATOMIC_UNSUPPORTED, every other one with HOST_ABORT. (DESIGN CHOICE, log 83: unsafe.) -/
def State.hostError (s : State) (u id : Nat) (lanes : Mask) (ur : Bool) : State :=
  let r := (s.warp u).replies.get id
  let cause := if ur && r.atomic then cATOMIC_UNSUPPORTED else cHOST_ABORT
  let lanes := lanes &&& s.dueLanes u id
  if !((s.warp u).live && r.host) || lanes = 0#32 then s
  else match s.opOf u id with
    | none => if ur && r.atomic then s else s.failReply u id cause lanes
    | some (n, x) =>
        let s := s.updReply u id (fun r => r.failIn cause lanes)
        let s := { s with portOps := s.portOps.set n { x with lanes := x.lanes.filter (fun l => !lanes.has l.lane) } }
        if (s.portOps.get n).lanes.isEmpty then s.endAtomic n else s

/-- HOST_STORE_FAIL (R174): the write is lost, and its context's record says so. (DEDUCED, log 57: unsafe.) -/
def execHostStoreFail (store : Nat) (s : State) : Out :=
  let x := s.hostStores.get store
  .next (
    if !x.live then s
    else
      let s := { s with hostStores := s.hostStores.erase store }
      if (s.warp x.warp).live then s.recordWarp (s.warp x.warp) cHOST_ABORT x.addr 0#32
      else s.record (x.ck / 64) (x.ck % 64) cHOST_ABORT x.addr 0#32 noUnit noUnit)

/-! ### The port window and the scratchpad aperture (R242 to R246, R249) -/

/-- The context and port of an offset of BAR2. -/
def barCtx (offset : Nat) : Nat := offset / 0x200000
def barPort (offset : Nat) : Nat := offset % 0x200000 / 32

/-- HOST_PORT_WRITE (R243, R244). -/
def execHostPortWrite (fn offset : Nat) (bytes : List Byte) (s : State) : Out :=
  let c := barCtx offset
  let n := barPort offset
  let x := s.port (portKey (ctxKey fn c) n)
  .next (
    if !(s.part fn).live then s
    else if bytes.length != 32 || offset % 32 != 0 || 64 ≤ c || !(s.ctx (ctxKey fn c)).live || !x.valid || x.quar || !x.hostw then s.countBad fn
    else if !s.canPost fn c n then s
    else s.post fn c n { sender := fn, kind := 6, payload := (List.range 6).map (fun i => BitVec.ofNat 32 (bytesNat ((bytes.drop (8 + 4 * i)).take 4))) })

/-- May the device take a write to its port window now (R295)? -/
def State.portCredit (s : State) (fn offset : Nat) : Bool := s.canPost fn (barCtx offset) (barPort offset)

/-- Is it one request: at most `max` bytes that do not cross 4 KiB, inside BAR4? (PRESUMED, log 52: unsafe.) -/
def oneRequest (max offset n : Nat) : Bool := 0 < n && n ≤ max && offset / 4096 == (offset + n - 1) / 4096 && offset < 2 ^ 30

/-- The location of an offset of BAR4; none where the slot is unmapped. -/
def State.apertureLoc (s : State) (fn offset : Nat) : Option Nat :=
  match (s.fns.get fn).slots.get (offset / 65536) with
  | 0 => none
  | n + 1 => some (ppaLoc fn (65536 * n + offset % 65536))

/-- HOST_APERTURE_WRITE (R249). (PRESUMED, log 52: unsafe.) -/
def execHostApertureWrite (fn offset : Nat) (bytes : List Byte) (s : State) : Out :=
  .next (
    if !(s.part fn).live || !oneRequest 512 offset bytes.length then s
    else match s.apertureLoc fn offset with
      | none => { s with fns := s.fns.upd fn (fun f => { f with apdrop := min (f.apdrop + 1) 0xFFFF }) }
      | some loc => s.putCells [] false ((bytes.zipIdx).map (fun b => (loc + b.2, b.1))))

/-- The function answers a request of the host. -/
def State.hostAnswer (s : State) (fn : Nat) (ur : Bool) (data : List Byte) : State :=
  { s with fns := s.fns.upd fn (fun f => { f with unsupported := ur, data := data }) }

/-- HOST_APERTURE_READ (R242, R249). (PRESUMED, log 52: unsafe.) -/
def execHostApertureRead (fn offset len : Nat) (s : State) : Out :=
  .next (
    if 8 ≤ fn || !oneRequest 4096 offset len then s
    else if !(s.part fn).live then s.hostAnswer fn false (List.replicate len 0#8)
    else match s.apertureLoc fn offset with
      | none => s.hostAnswer fn true []
      | some loc => s.hostAnswer fn false (s.bytes loc len))

/-- One register of BAR0 by its offset (R242, R246, R393); what has no register reads zero. -/
def HostFn.bar0 (f : HostFn) (off : Nat) : Nat :=
  if off = 0x10 then 65536 * f.pwlost + f.pwbad
  else if off = 0x14 then f.apdrop
  else if 0x100 ≤ off && off < 0x150 then bytesNat ((List.range 4).map (fun i => f.creation.get (off - 0x100 + i)))
  else if off = 0x184 then f.ctxstat.toNat
  else if off = 0x188 then f.ctxreason.toNat
  else 0

/-- `len` bytes of BAR0 from an offset. -/
def HostFn.bar0Bytes (f : HostFn) (off len : Nat) : List Byte :=
  (List.range len).map (fun i => BitVec.ofNat 8 (f.bar0 ((off + i) / 4 * 4) / 256 ^ ((off + i) % 4)))

/-- The host reads a BAR (R242, R243): registers in BAR0, zeros from BAR2, the aperture in BAR4. -/
def execBarRead (fn bar offset len : Nat) (s : State) : Out :=
  if bar = 4 then execHostApertureRead fn offset len s
  else .next (
    if 8 ≤ fn || !oneRequest 4096 offset len then s
    else s.hostAnswer fn false (if bar = 0 && (s.part fn).live then (s.fns.get fn).bar0Bytes offset len else List.replicate len 0#8))

/-- HOST_ATOMICOP (R241). -/
def execHostAtomicop (fn _offset : Nat) (s : State) : Out := .next (if fn < 8 then s.hostAnswer fn true [] else s)

/-! ### Registers without a row of their own (R11, R246, R247, R249, R361, R377, R393) -/

/-- REGISTER_WRITE: reserved bits keep the value zero; the registers of an unconfigured function drop the write (R242); DCTL is
written only while the debug right is held (R360). (DEDUCED, log 53: unsafe.) -/
def execRegisterWrite (reg : DevReg) (val : DWord) (s : State) : Out :=
  let lo : Word := val.setWidth 32
  let v := lo.toNat
  let onFn (n : Nat) (f : HostFn → HostFn) : State := if (s.part n).live then { s with fns := s.fns.upd n f } else s
  .next (match reg with
    | .pwstat n => onFn n (fun f => { f with pwlost := v / 65536, pwbad := v % 65536 })
    | .apstat n => onFn n (fun f => { f with apdrop := v % 65536 })
    | .creation n off =>
      if off % 4 = 0 && off < 0x50 then
        onFn n (fun f => { f with creation := (List.range 4).foldl (fun m i => Map.set m (off + i) (BitVec.ofNat 8 (v / 256 ^ i))) f.creation })
      else s
    | .aperture n slot =>
      let a := val.toNat
      if slot < 16384 && (a = 0 || (scrPpa ≤ a && a % 65536 = 0 && s.ppaInside n a)) then
        onFn n (fun f => { f with slots := f.slots.set slot (if a = 0 then 0 else a / 65536 + 1) })
      else s
    | .dctl ck => if s.attached ck then s.updCtx ck (fun c => { c with dbg := { c.dbg with dctl := lo &&& 0xFFFF9FFF#32 } }) else s
    | .bin ck k slot =>
      if (s.ctx ck).live && k < 15 && slot < 16 then
        s.updCtx ck (fun c => { c with dbg := { c.dbg with bins := c.dbg.bins.upd k (fun b => { b with slot := slot, base := lo, limit := BitVec.ofNat 32 (val.toNat / 2 ^ 32) }) } })
      else s
    | .completionTimeout n => onFn n (fun f => { f with timeout := v }))

/-- The host writes four bytes of BAR0 at an offset (R242, R246, R393): read-only and absent registers drop the write. CTXGO has a row of its own. -/
def execBarWrite (fn offset : Nat) (val : DWord) (s : State) : Out :=
  if offset = 0x10 then execRegisterWrite (.pwstat fn) val s
  else if offset = 0x14 then execRegisterWrite (.apstat fn) val s
  else if 0x100 ≤ offset && offset < 0x150 then execRegisterWrite (.creation fn (offset - 0x100)) val s
  else .next s

/-! ### The PHC (R250, R380) -/

/-- Units of 2^-16 ns in one microsecond and in one second. -/
def phcUs : Nat := 65536 * 1000
def phcSecond : Nat := 65536 * 1000000000

/-- The PHC counts 2^48 seconds and starts again. -/
def phcWrap : Nat := 2 ^ 48 * phcSecond

/-- The source says that it is `t`: the PHC is slewed to it from at most 1 µs away, else stepped; a second reached after a step is a new one for
the output. (DEDUCED, log 56: unsafe.) -/
def State.discipline (s : State) (t : Nat) : State :=
  let off : Int := (t : Int) - s.phc
  let s := { s with mc := { s.mc with holdover := false } }
  if off.natAbs ≤ phcUs then { s with mc := { s.mc with slew := off, slewFrac := 0 } }
  else { s with phc := t % phcWrap, mc := { s.mc with slew := 0, slewFrac := 0, pulsed := none } }

/-- PTM_RESPONSE (R250, R380): the source itself, or the time of day for the 1PPS input. -/
def execPtmResponse (time : Nat) (s : State) : Out :=
  .next (if s.mc.ptmOnly then s.discipline time else { s with mc := { s.mc with tod := some (time, s.clock) } })

/-- The whole second nearest to a time. -/
def nearestSecond (t : Nat) : Nat := (t + phcSecond / 2) / phcSecond * phcSecond

/-- The time as PTM gave it last, carried on by the clock since; the PHC itself where it gave none. (DEDUCED, log 56: unsafe.) -/
def State.todNow (s : State) : Nat :=
  match s.mc.tod with
  | some x => x.1 + (s.clock - x.2) * phcPerClock
  | none => s.phc

/-- PPS_INPUT (R380): an edge of the 1PPS input, `ago` clocks ago, marks the second nearest to the time of day at it. (DEDUCED, log 56: unsafe.) -/
def execPpsInput (ago : Nat) (s : State) : Out :=
  let d := ago * phcPerClock
  .next (if s.mc.ptmOnly then s else s.discipline (nearestSecond (s.todNow - d) + d))

/-- TIME_SOURCE_LOSS (R380). -/
def execTimeSourceLoss (s : State) : Out :=
  .next { s with mc := { s.mc with holdover := true, tod := none, slew := 0, slewFrac := 0, out := s.mc.out ++ [.holdover] } }

/-- May the output pulse of this PHC second be driven now, within 20 ns? -/
def State.pulseDue (s : State) : Bool := s.mc.pulsed != some s.phcSec && s.phcNs < 20

/-- PPS_OUTPUT (R380). -/
def execPpsOutput (s : State) : Out :=
  .next (if s.pulseDue then { s with mc := { s.mc with pulsed := some s.phcSec, out := s.mc.out ++ [.pulse s.phcSec] } } else s)

/-- What one clock adds to the PHC: its nominal 0.625 ns, and up to 200 ppm towards the source. -/
def State.phcTick (s : State) : State :=
  let m := s.mc
  let budget := m.slewFrac + 8192
  let n := min m.slew.natAbs (budget / 1000)
  let d : Int := if m.slew < 0 then -(n : Int) else n
  { s with phc := ((s.phc + phcPerClock : Nat) + d).toNat % phcWrap, mc := { m with slew := m.slew - d, slewFrac := if m.slew == d then 0 else budget - 1000 * n } }

/-! ### The fabric (R251 to R255) -/

/-- Fabric links of the package (R251). -/
def linkCount : Nat := 18

/-- FLIT_CRC_FAIL (R251): a flit fails, or its replay does; after eight failed replays in succession the link retrains. (DEDUCED, log 54: safe.) -/
def execFlitCrcFail (link : Nat) (s : State) : Out :=
  let x := s.links.get link
  .next (
    if linkCount ≤ link || x.down || x.retraining then s
    else { s with links := s.links.set link (if 9 ≤ x.fails + 1 then { x with fails := 0, retraining := true } else { x with fails := x.fails + 1 }) })

/-- The flit in hand passes its check (R251). -/
def State.flitOk (s : State) (link : Nat) : State :=
  if (s.links.get link).retraining then s else { s with links := s.links.upd link (fun x => { x with fails := 0 }) }

/-- LINK_RETRAIN_DONE (R251). -/
def execLinkRetrainDone (link : Nat) (s : State) : Out :=
  .next (if (s.links.get link).retraining then { s with links := s.links.upd link (fun x => { x with fails := 0, retraining := false }) } else s)

/-- Lanes of a domain access that go to a rank. -/
def lanesTo (ranks : List (Nat × Nat)) (rank : Nat) : Mask := (ranks.filter (fun x => domRank x.2 == rank)).foldl (fun m x => m ||| Mask.single x.1) 0#32

/-- The replies of a warp that come from a rank fail (R255). -/
def State.loseRank (s : State) (rank u : Nat) : State :=
  ((s.warp u).replies.filter (fun e => lanesTo e.2.ranks rank != 0#32)).foldl (fun s e => s.failReply u e.1 cREMOTE_UNREACHABLE (lanesTo e.2.ranks rank)) s

/-- Is a wait a park on a line of a page of that rank? -/
def State.parkedOn (s : State) (t : Wait) (rank : Nat) : Bool :=
  match t with
  | .line k => s.ens.any (fun e => ((e.2.members.get rank).pages).any (fun p => p.2.live && p.2.loc / 65536 == 128 * k / 65536))
  | _ => false

/-- The line that a wait is a park on. -/
def Wait.lines (t : Wait) : List (Nat × LineState) :=
  match t with
  | .line k => [(k, .present)]
  | _ => []

/-- A warp parked on a line of that rank wakes, in a wait that a trap put aside too (R255, R345); one of a replay gang at its gang's next
boundary (R373). -/
def State.wakeRank (s : State) (rank u : Nat) : State :=
  let s := if s.parkedOn (s.warp u).wait rank then
      (if s.waitsEnd (s.warp u).gang then (s.logWake u []).updWarp u (fun w => { w with wait := .ready })
       else s.updWarp u (fun w => { w with woken := w.woken ++ w.wait.lines }))
    else s
  if s.parkedOn (s.warp u).rsS.wait rank then s.updWarp u (fun w => { w with rsS := { w.rsS with wait := .ready } }) else s

/-- A domain write whose acknowledgement is lost is recorded; an atomic's reply tells of it instead (R255). -/
def State.loseAck (s : State) (n : Nat) : State :=
  let x := s.acks.get n
  let a : Word := BitVec.ofNat 32 x.addr
  let s := { s with acks := s.acks.erase n }
  if x.atomic then s
  else if (s.warp x.warp).live then s.recordWarp (s.warp x.warp) cREMOTE_UNREACHABLE a x.info
  else s.record (x.ck / 64) (x.ck % 64) cREMOTE_UNREACHABLE a x.info noUnit noUnit

/-- RANK_UNREACHABLE (R255). Stores and updates of the rank on their way perform first: each performs once or not at all. (DEDUCED, log 55: unsafe.) -/
def execRankUnreachable (rank : Nat) (s : State) : Out :=
  if 64 ≤ rank then .next s
  else
    let s := s.drainTo ((s.portOps.filter (fun e => e.2.live && lanesTo e.2.ranks rank != 0#32)).map (·.1))
    let s := s.drainHeld (fun h => lanesTo h.ranks rank != 0#32)
    let s := { s with unreach := s.unreach.set rank true }
    let s := (s.warps.keys).foldl (fun s u => s.loseRank rank u) s
    let s := (s.warps.keys).foldl (fun s u => s.wakeRank rank u) s
    let s := ((s.acks.filter (fun e => e.2.live && e.2.rank == rank)).map (·.1)).foldl State.loseAck s
    let has (e : Nat) : Bool := ((s.ens.get e).members.get rank).live
    .next { s with colls := s.colls.mapVals (fun _ j => if j.live && (match j.ens with | some e => has e | none => false) then { j with aborted := true } else j) }

/-- Where a page of a member lies, with its TSO attribute: in the remote window of ensemble `e`, with the attribute that it is registered
with, or on this package at a page that the
member's context owns (R173, R402). -/
def State.memberPage (s : State) (e : Nat) (m : EnsMember) (page : Nat) (tso : Bool) : Option (Nat × Bool) :=
  match m.launch with
  | none => some (remoteLoc e m.rank (65536 * page), tso)
  | some n =>
    let l := s.launch n
    match s.leafAt controlUnit l.part l.ctx .scr (65536 * page) with
    | .leaf x size =>
      let a := pteFrame x + 65536 * page % size
      if s.owner l.part a == l.ctx then some (ppaLoc l.part a, pteTso x) else none
    | _ => none

/-- A member's domain pages as they enter the tables (R252). -/
def State.memberPages (s : State) (e : Nat) (m : EnsMember) : Map DomPage :=
  m.pages.foldl (fun (t : Map DomPage) (p : Nat × Bool × Bool × Bool) =>
    match s.memberPage e m p.1 p.2.2.2 with
    | some x => if p.1 < 65536 then t.set p.1 { live := true, tso := x.2, r := p.2.1, w := p.2.2.1, loc := x.1 } else t
    | none => t) []

/-- ENSEMBLE_REGISTER (R252): at most 64 members with distinct ranks, at most one of them a launch of this package that is in no other
ensemble. -/
def execEnsembleRegister (members : List EnsMember) (s : State) : Out :=
  let ranks := members.map (·.rank)
  let launches := members.filterMap (·.launch)
  .next (
    if members.isEmpty || ranks.any (64 ≤ ·) || ranks.eraseDups.length != ranks.length || 1 < launches.length
      || launches.any (fun n => !(s.launch n).live || (s.launch n).ens.isSome) then s
    else
      let (e, s) := s.fresh
      let tab := members.foldl (fun (t : Map EnsRank) (m : EnsMember) => t.set m.rank { live := true, launch := m.launch, pages := s.memberPages e m }) []
      members.foldl (fun s m => match m.launch with
        | some n => s.updLaunch n (fun l => { l with ens := some e, rank := m.rank })
        | none => s) { s with ens := s.ens.set e { live := true, members := tab } })

/-- ENSEMBLE_DEREGISTER (R252): a member deregisters; the registration ends with the last one. -/
def execEnsembleDeregister (ens rank : Nat) (s : State) : Out :=
  .next (
    if !((s.ens.get ens).members.get rank).live then s
    else ({ s with ens := s.ens.upd ens (fun x => { x with members := x.members.upd rank (fun m => { m with left := true }) }) }).closeEns ens)

end Sys2Proof.Machine
end

