-- ==== Sys2Proof/Machine/Convert.lean ====
section
/-! DEFINITION. Conversions, binary8 packing and the dot products (R101, R131 to R135). -/
set_option autoImplicit false

namespace Sys2Proof.Machine

/-- One value of format `src` converted to format `dst` (R101). Between integers, out of range keeps the low bits or saturates. -/
def convert (dst src : Fmt) (m : Rnd) (sat : Bool) (code : Nat) : Flagged :=
  let x := decodeVal src code
  match dst, src with
  | .int ds db, .int _ _ =>
    let z : Int := match x with
      | .fin s n _ => if s then -(n : Int) else n
      | _ => 0
    if sat then let r := satInt db ds z; (keep db r.1, r.2) else (keep db z, 0)
  | _, _ => let r := round dst m sat x; (r.1, r.2 ||| sigFlag x)

/-- One VCVT value; a complex format converts each part on its own (R91, R131). -/
def convertCode (dst src : BitVec 6) (m : Rnd) (sat : Bool) (x : Nat) : Flagged :=
  let df := Fmt.ofCode dst
  let sf := Fmt.ofCode src
  if fmtIsComplex dst then
    let re := convert df sf m sat (x % 2 ^ sf.width)
    let im := convert df sf m sat (x / 2 ^ sf.width % 2 ^ sf.width)
    (re.1 + im.1 * 2 ^ df.width, re.2 ||| im.2)
  else convert df sf m sat (x % 2 ^ sf.width)

/-- VCVT (R131). An integer literal is sign-extended to the register or pair; a floating constant is a code of the source
format. -/
def execVcvt (o : NOp) (s : State) : Out :=
  let dst := BitVec.ofNat 6 o.s1.ctlVal
  let src := BitVec.ofNat 6 o.s2.ctlVal
  let ty : Ty := if fmtBits src == 64 then .n64 else .n32
  .next (s.vop (.vcvt o) o (fmtBits dst == 64) (fun l =>
    let x := match o.s0 with
      | .fc k => fconst (Fmt.ofCode src) k.toNat
      | y => s.src ty y l
    convertCode dst src o.rnd (o.s1.ctlVal / 64 % 2 == 1) x))

/-! ### The pack control word (R132) -/

/-- Fields of the pack control word. -/
structure PackCtl where
  fmt : BitVec 6
  sat : Bool
  sel : Nat
  sbyte : Nat
  bad : Bool
  deriving DecidableEq, Repr

/-- Read the pack control word for a type; `bad` is what faults with ILLEGAL_OP. -/
def PackCtl.of (c : Word) (t : Ty) : PackCtl :=
  let n := c.toNat
  let fmt := BitVec.ofNat 6 n
  let sel := n / 256 % 4
  { fmt := fmt, sat := c.getLsbD 6, sel := sel, sbyte := n / 1024 % 4, bad := !fmtIsB8 fmt || c.getLsbD 7 || (t.bits == 16 && 2 ≤ sel) }

/-- A block scale 2^(c - 128) (R95). -/
def scaleExp (c : Nat) : Int := (c : Int) - 128

/-- One lane of VPK8 (R133). (DEDUCED, log 14: unsafe.) -/
def packLane (t : Ty) (p : PackCtl) (m : Rnd) (a sc w : Nat) : Flagged :=
  let f := Fmt.ofCode p.fmt
  let c := sc / 2 ^ (8 * p.sbyte) % 256
  (List.range t.elems).foldl (fun acc k =>
    let j := if t.elems = 1 then p.sel else 2 * p.sel + k
    let x := decodeVal (Fmt.ofTy t) (elemNat t.bits k a)
    let r : Flagged :=
      if c = 0xFF then (f.defaultNan, fSCALE_NAN)
      else if c = 0 then (0, 0)
      else let r := round f m p.sat (x.scale (-(scaleExp c))); (r.1, r.2 ||| sigFlag x)
    (putBits acc.1 (8 * j) 8 r.1, acc.2 ||| r.2)) (w, 0)

/-- One lane of VUPK8 (R134). -/
def unpackLane (t : Ty) (p : PackCtl) (m : Rnd) (a sc : Nat) : Flagged :=
  let f := Fmt.ofCode p.fmt
  let c := sc / 2 ^ (8 * p.sbyte) % 256
  (List.range t.elems).foldl (fun acc k =>
    let j := if t.elems = 1 then p.sel else 2 * p.sel + k
    let x := decodeVal f (a / 2 ^ (8 * j) % 256)
    let fm := Fmt.ofTy t
    let r : Flagged :=
      if c = 0xFF then (fm.defaultNan, fSCALE_NAN)
      else if c = 0 then
        (match x with
          | .nan _ => (fm.defaultNan, 0)
          | .inf _ => (fm.defaultNan, fINVALID)
          | .fin neg _ _ => round fm m p.sat (.fin neg 0 1))
      else round fm m p.sat (x.scale (scaleExp c))
    (acc.1 + r.1 * 2 ^ (t.bits * k), acc.2 ||| r.2)) (0, 0)

/-- The executing operation refuses itself with ILLEGAL_OP (R55). -/
def State.illegal (s : State) : State :=
  let x := s.me.refusal
  s.raise cILLEGAL_OP x.1 x.2 s.me.step.issue

/-- VPK8 (R133): bytes that are not selected keep D as it stood before the step. -/
def execVpk8 (o : NOp) (s : State) : Out :=
  let m := s.me.execSet o.g
  .next (s.checked (.vpk8 o) m (fun s =>
    let p := PackCtl.of (s.srcW o.s2 0) o.ty
    if p.bad then s.illegal
    else s.putV o.e o.v o.d.toNat m false (fun l =>
      packLane o.ty p o.rnd (s.src o.ty o.s0 l) (s.src .n32 o.s1 l) (s.me.vword o.d.toNat l).toNat)))

/-- VUPK8 (R134). -/
def execVupk8 (o : NOp) (s : State) : Out :=
  let m := s.me.execSet o.g
  .next (s.checked (.vupk8 o) m (fun s =>
    let p := PackCtl.of (s.srcW o.s2 0) o.ty
    if p.bad then s.illegal
    else s.putV o.e o.v o.d.toNat m false (fun l => unpackLane o.ty p o.rnd (s.src o.ty o.s0 l) (s.src .n32 o.s1 l))))

/-! ### Dot products (R135) -/

/-- Products of two lists of values plus an addend, rounded once into FP32. -/
def dotLane (m : Rnd) (xs ys : List XReal) (c : Nat) : Flagged :=
  let z := decodeVal .f32 c
  let x := xdot m (xs.zip ys) [z]
  let r := round .f32 m false x.1
  (r.1, r.2 ||| x.2 ||| (xs ++ ys ++ [z]).foldl (fun a v => a ||| sigFlag v) 0)

/-- VFDOT2 (R135). -/
def execVfdot2 (o : NOp) (s : State) : Out :=
  .next (s.vop (.vfdot2 o) o false (fun l =>
    let els (x : Nat) : List XReal := (List.range 2).map (fun k => decodeVal (Fmt.ofTy o.ty) (elemNat 16 k x))
    dotLane o.rnd (els (s.src o.ty o.s0 l)) (els (s.src o.ty o.s1 l)) (s.src .f32 o.s2 l)))

/-- VFDOT4 (R135): D is the accumulator as it stood before the step, also under V = 1. -/
def execVfdot4 (o : NOp) (s : State) : Out :=
  .next (s.vop (.vfdot4 o) o false (fun l =>
    let a := s.src o.ty o.s0 l
    let b := s.src o.ty o.s1 l
    let d := (s.me.vword o.d.toNat l).toNat
    if o.ty.isInt then
      let sg := o.ty.signed
      (keep 32 ((List.range 4).foldl (fun acc k => acc + readInt sg 8 (elemNat 8 k a) * readInt sg 8 (elemNat 8 k b)) (d : Int)), 0)
    else
      let f := Fmt.ofCode (BitVec.ofNat 6 o.s2.ctlVal)
      let els (x : Nat) : List XReal := (List.range 4).map (fun k => decodeVal f (elemNat 8 k x))
      dotLane o.rnd (els a) (els b) d))

end Sys2Proof.Machine
end

