-- ==== Sys2Proof/Machine/CrossLane.lean ====
section
/-! DEFINITION. The cross-lane instructions (R141 to R145). -/
set_option autoImplicit false

namespace Sys2Proof.Machine

/-- The lanes of `m` in lane `l`'s subgroup, in increasing order. -/
def sgLanes (size : Nat) (m : Mask) (l : Nat) : List Nat := m.lanes.filter (fun j => sgBase size j == sgBase size l)

/-- VSHFL (R143). -/
def execVshfl (o : NOp) (s : State) : Out :=
  .next (s.orPoison (s.tagRead (.vshfl o)) (fun s =>
    s.putV o.e o.v o.d.toNat (s.me.execSet o.g) o.ty.is64 (fun l => (s.src o.ty o.s0 (s.shflFrom o l), 0))))

/-- VBCAST (R143): the control literal is S1, the lane number S2. -/
def execVbcast (o : NOp) (s : State) : Out :=
  .next (s.orPoison (s.tagRead (.vbcast o)) (fun s =>
    s.putV o.e o.v o.d.toNat (s.me.execSet o.g) o.ty.is64 (fun l => (s.src o.ty o.s0 (s.bcastFrom o l), 0))))

/-! ### Reductions and scans (R144) -/

/-- The combining operations of VREDUCE, VSCAN and COLL: add, min, max, and, or, xor on a value of a type. -/
def redOp (t : Ty) (m : Rnd) (op : Nat) (a b : Nat) : Flagged :=
  if t.isInt then
    (match op with
      | 0 => intLane t fAdd a b 0
      | 1 => intLane t fMin a b 0
      | 2 => intLane t fMax a b 0
      | 3 => intLane t fAnd a b 0
      | 4 => intLane t fOr a b 0
      | _ => intLane t fXor a b 0)
  else
    (match op with
      | 0 => fltLane t 2 m gAdd a b 0
      | 1 => codeLane t (fMinMax false true) a b
      | _ => codeLane t (fMinMax true true) a b)

/-- The identity of an operation, in every element (R144). -/
def redIdentity (t : Ty) (op : Nat) : Nat :=
  let f := Fmt.ofTy t
  let c := if t.isInt then
      (match op with
        | 1 => if t.signed then 2 ^ (t.bits - 1) - 1 else 2 ^ t.bits - 1
        | 2 => if t.signed then 2 ^ (t.bits - 1) else 0
        | 3 => 2 ^ t.bits - 1
        | _ => 0)
    else
      (match op with
        | 0 => f.signWeight
        | 1 => (f.infCode false).getD 0
        | _ => (f.infCode true).getD 0)
  replicateCode t c

/-- One stage of the tree: neighbours combine, a lone child passes unchanged (R144). -/
def treeStage (f : Nat → Nat → Flagged) : List (Option Nat) → List (Option Nat) × Nat
  | a :: b :: r =>
    let rest := treeStage f r
    match a, b with
    | some x, some y => let z := f x y; (some z.1 :: rest.1, z.2 ||| rest.2)
    | some x, none => (some x :: rest.1, rest.2)
    | none, y => (y :: rest.1, rest.2)
  | r => (r, 0)

/-- The fixed tree over the lanes of a subgroup: `fuel` stages. -/
def treeReduce (f : Nat → Nat → Flagged) : Nat → List (Option Nat) → Nat → Option Nat × Nat
  | 0, r, fl => (r.headD none, fl)
  | fuel + 1, r, fl => let x := treeStage f r; treeReduce f fuel x.1 (fl ||| x.2)

/-- VREDUCE (R144). A lane outside exec() whose subgroup has no contribution has no value: b0 holds a free one there. (DEDUCED, log 11: safe.) -/
def execVreduce (o : NOp) (s : State) : Out :=
  let m := s.me.execSet o.g
  let ctl := o.s2.ctlVal
  let size := s.me.sgSize ctl
  .next (s.vop (.vreduce o) o o.ty.is64 (fun l =>
    let vals := (List.range size).map (fun j => let k := sgBase size l + j; if m.has k then some (s.src o.ty o.s0 k) else none)
    let r := treeReduce (redOp o.ty o.rnd (ctl / 8 % 16)) 5 vals 0
    (r.1.getD (s.freeAt l).toNat, r.2)))

/-- The left fold of a list: the value and its flags; none for an empty list. -/
def foldVals (f : Nat → Nat → Flagged) : List Nat → Option Nat × Nat
  | [] => (none, 0)
  | a :: r => let x := r.foldl (fun (acc : Flagged) b => let y := f acc.1 b; (y.1, acc.2 ||| y.2)) (a, 0); (some x.1, x.2)

/-- VSCAN (R144): a flag raised at any fold step is raised in every writing lane of the subgroup; a lane with no contribution at or below it
has the identity. (DEDUCED, log 93: unsafe.) -/
def execVscan (o : NOp) (s : State) : Out :=
  let m := s.me.execSet o.g
  let ctl := o.s2.ctlVal
  let size := s.me.sgSize ctl
  let excl := ctl / 128 % 2 == 1
  let op := ctl / 8 % 16
  let fold (js : List Nat) : Option Nat × Nat := foldVals (redOp o.ty o.rnd op) (js.map (s.src o.ty o.s0))
  .next (s.vop (.vscan o) o o.ty.is64 (fun l =>
    let mine := sgLanes size m l
    let upto := mine.filter (fun j => if excl then j < l else j ≤ l)
    let all := if excl then mine.dropLast else mine
    ((fold upto).1.getD (redIdentity o.ty op), (fold all).2)))

/-! ### Ballots (R145) -/

/-- VBALLOT (R145). -/
def execVballot (o : NOp) (s : State) : Out :=
  let m := s.me.execSet o.g
  let size := s.me.sgSize o.s2.ctlVal
  .next (s.vop (.vballot o) o false (fun l =>
    ((Mask.ofFn (fun j => (sgLanes size m l).contains j && s.src o.ty o.s0 j != 0)).toNat, 0)))

/-- VMATCH (R145): a whole pair is compared under 64-bit types. -/
def execVmatch (o : NOp) (s : State) : Out :=
  let m := s.me.execSet o.g
  let size := s.me.sgSize o.s2.ctlVal
  .next (s.vop (.vmatch o) o false (fun l =>
    ((Mask.ofFn (fun j => (sgLanes size m l).contains j && s.src o.ty o.s0 j == s.src o.ty o.s0 l)).toNat, 0)))

/-- VVOTE (R145): all, any, uni. -/
def execVvote (o : NOp) (s : State) : Out :=
  let m := s.me.execSet o.g
  let size := s.me.sgSize o.s2.ctlVal
  .next (s.vop (.vvote o) o false (fun l =>
    let vals := (sgLanes size m l).map (s.src o.ty o.s0)
    let r := match o.s2.ctlVal / 8 % 4 with
      | 0 => vals.all (· != 0)
      | 1 => vals.any (· != 0)
      | _ => vals.all (· == vals.headD 0)
    (if r then 0xFFFFFFFF else 0, 0)))

end Sys2Proof.Machine
end

