-- ==== Sys2Proof/Machine/Copies.lean ====
section
/-! DEFINITION. Copies between HBM and the near spaces, batches, and collectives (R193 to R203, R215 to R218). -/
set_option autoImplicit false

namespace Sys2Proof.Machine

/-! ### Templates (R195) -/

/-- The words of a template, by field. -/
def tmCtrl (t : List Word) : Nat := (t.getD 0 0#32).toNat
def tmPort (t : List Word) : Nat := (t.getD 1 0#32).toNat
def tm64 (t : List Word) (i : Nat) : Nat := (t.getD i 0#32).toNat + 2 ^ 32 * (t.getD (i + 1) 0#32).toNat
def tmGbase (t : List Word) : Nat := tm64 t 2
def tmExt (t : List Word) (k : Nat) : Nat := (t.getD (4 + k) 0#32).toNat
/-- The far stride of dimension k, 1 to 3. -/
def tmGstr (t : List Word) (k : Nat) : Nat := tm64 t (6 + 2 * k)
def tmBox (t : List Word) (k : Nat) : Nat := (t.getD 14 0#32).toNat / 2 ^ (8 * k) % 256 + 1
def tmDir (t : List Word) : Nat := tmCtrl t % 16
def tmNdim (t : List Word) : Nat := tmCtrl t / 16 % 4 + 1
def tmFar (t : List Word) : BitVec 6 := BitVec.ofNat 6 (tmCtrl t / 2 ^ 8)
def tmNear (t : List Word) : BitVec 6 := BitVec.ofNat 6 (tmCtrl t / 2 ^ 14)
def tmRnd (t : List Word) : Rnd := if tmCtrl t / 2 ^ 20 % 2 = 1 then .rtz else .rne
def tmSat (t : List Word) : Bool := tmCtrl t / 2 ^ 21 % 2 == 1
def tmPortEn (t : List Word) : Bool := tmCtrl t / 2 ^ 22 % 2 == 1

/-- Width of an element in bytes. -/
def elemBytes (f : BitVec 6) : Nat := fmtBits f / 8

/-- May a format stand in a template? -/
def tmFmtOk (f : BitVec 6) : Bool := fmtValid f && f != 0x0E#6

/-- Does the template satisfy the rules of R195? -/
def tmOk (t : List Word) : Bool :=
  let c := tmCtrl t
  let ef := elemBytes (tmFar t)
  c / 2 ^ 31 == 1 && c / 2 ^ 23 % 256 == 0 && c / 2 ^ 6 % 4 == 0 && tmDir t < 4
  && tmFmtOk (tmFar t) && tmFmtOk (tmNear t)
  && (if fmtIsComplex (tmFar t) || fmtIsComplex (tmNear t) then tmFar t == tmNear t else true)
  && tmGbase t % ef == 0 && (List.range 3).all (fun k => tmGstr t (k + 1) % ef == 0)
  && (List.range 4).all (fun k => 1 ≤ tmExt t k && tmExt t k ≤ 2 ^ 31 && (k < tmNdim t || (tmExt t k == 1 && tmBox t k == 1)))
  && t.getD 15 0#32 == 0#32

/-! ### The elements of a tile (R196) -/

/-- One element: its near and far byte addresses and whether it is in bounds. -/
structure Elem where
  near : Nat
  far : Int
  inb : Bool
  deriving DecidableEq, Repr, Inhabited

/-- The elements in the order i3, i2, i1, i0, i0 innermost. -/
def tileElems (t layout origin : List Word) : List Elem :=
  let w1 := (layout.getD 1 0#32).toNat
  let w2 := (layout.getD 2 0#32).toNat
  let mode := w2 / 2 ^ 24 % 16
  let og (k : Nat) : Int := (origin.getD k 0#32).toInt
  let en := elemBytes (tmNear t)
  let ef : Int := elemBytes (tmFar t)
  (List.range (tmBox t 3)).flatMap (fun (i3 : Nat) => (List.range (tmBox t 2)).flatMap (fun (i2 : Nat) =>
    (List.range (tmBox t 1)).flatMap (fun (i1 : Nat) => (List.range (tmBox t 0)).map (fun (i0 : Nat) =>
      let c0 : Int := og 0 + (i0 : Int)
      let c1 : Int := og 1 + (i1 : Int)
      let c2 : Int := og 2 + (i2 : Int)
      let c3 : Int := og 3 + (i3 : Int)
      let inb (c : Int) (k : Nat) : Bool := 0 ≤ c && c < (tmExt t k : Int)
      let near0 : Nat := 16 * ((layout.getD 0 0#32).toNat + i1 * (w1 % 65536) + i2 * (w1 / 65536) + i3 * (w2 % 2 ^ 24)) + i0 * en
      let near : Nat := if mode = 0 then near0
        else near0 - near0 / 16 % 8 * 16 + Nat.xor (near0 / 16 % 8) (i1 / 2 ^ (mode - 1) % 8) * 16
      { near := near, far := (tmGbase t : Int) + c0 * ef + c1 * tmGstr t 1 + c2 * tmGstr t 2 + c3 * tmGstr t 3,
        inb := inb c0 0 && inb c1 1 && inb c2 2 && inb c3 3 }))))

def CopyJob.elems (j : CopyJob) : List Elem := tileElems j.tmpl j.layout j.origin
def CopyJob.dir (j : CopyJob) : Nat := tmDir j.tmpl
/-- Is the near side gang memory? -/
def CopyJob.nearGang (j : CopyJob) : Bool := 2 ≤ j.dir
/-- Does the copy read the far side? -/
def CopyJob.inward (j : CopyJob) : Bool := j.dir % 2 == 0

/-- The location of a near byte through the pages that were translated. -/
def pageLoc (pages : List (Nat × Nat)) (va : Nat) : Nat := ((pages.lookup (va / 65536)).getD 0) + va % 65536

def CopyJob.nearLoc (j : CopyJob) (va : Nat) : Nat := if j.nearGang then gangLoc j.gang va else pageLoc j.pages va

/-- The near lines of a tile, by address / 128, each once. -/
def CopyJob.footprint (j : CopyJob) : List Nat := (j.elems.map (fun e => e.near / 128)).eraseDups

/-- The near lines with an element that the copy moves. -/
def CopyJob.work (j : CopyJob) : List Nat := ((j.elems.filter (·.inb)).map (fun e => e.near / 128)).eraseDups

/-- The key of a near line in the table of line states. -/
def CopyJob.lineKey (j : CopyJob) (line : Nat) : Nat := j.nearLoc (128 * line) / 128

/-! ### COPY (R194, R197) -/

/-- The first failing page of a list of addresses, with the cause and its lowest address. -/
def State.pageFail (s : State) (acc : Access) (vas : List Nat) : Option (Nat × Nat) :=
  let w := s.me
  let g := s.gangOf w
  let bad := ((vas.map (· / 65536)).eraseDups).filterMap (fun pg => match s.translate g.part g.ctx .scr acc w.isSup (pg * 65536) with
    | .cause c => let a := (vas.filter (fun v => v / 65536 == pg)); some (c, a.foldl min (a.headD 0))
    | .ok _ _ => none)
  match bad with
  | [] => none
  | x :: r => some (r.foldl (fun b y => if y.2 < b.2 then y else b) x)

/-- The locations of the pages of a list of addresses. (DEDUCED, log 29: unsafe.) -/
def State.pageLocs (s : State) (acc : Access) (vas : List Nat) : List (Nat × Nat) :=
  let w := s.me
  let g := s.gangOf w
  ((vas.map (· / 65536)).eraseDups).map (fun pg => match s.translate g.part g.ctx .scr acc w.isSup (pg * 65536) with
    | .ok loc _ => (pg, loc)
    | .cause _ => (pg, 0))

/-- Copies of a warp that are not complete, whatever batch they are in (R197). -/
def State.copiesOut (s : State) (u : Nat) : Nat := (s.copies.filter (fun e => e.2.live && e.2.warp == u)).length

/-- Copies and collectives in the queue of a section's engine. (DESIGN CHOICE, log 24: safe.) -/
def State.engineLoad (s : State) (sec : Nat) : Nat :=
  (s.copies.filter (fun e => e.2.live && e.2.sec == sec)).length + (s.colls.filter (fun e => e.2.live && e.2.sec == sec)).length

/-- A line becomes absent; the issuing cluster's L1 drops it (R198). -/
def State.makeAbsent (s : State) (c key : Nat) : State := (s.setLine key .absent).dropLine c key

/-- The reasons of COPY_TEMPLATE (R197). -/
def copyReason (idx bar : Word) (t : List Word) : Option Nat :=
  if 4096 ≤ idx.toNat then some 1
  else if !tmOk t then some 2
  else if 2 ^ 20 < tmBox t 0 * tmBox t 1 * tmBox t 2 * tmBox t 3 * elemBytes (tmNear t) then some 3
  else if 31 < bar.toNat && bar != 0xFFFFFFFF#32 then some 4
  else none

/-- COPY (R193 to R198): its checks, then the copy enters the engine of its section. -/
def execCopy (o : XOp) (s : State) : Out :=
  let m := s.me.step.issue
  .next (s.checked (.copy o) m (fun s =>
    let w := s.me
    let g := s.gangOf w
    let ck := s.ckOf w
    let r (k : Nat) : Word := match o.s0 with
      | .scal n => w.sword (n.toNat + k)
      | _ => 0#32
    let layout := [r 2, r 3, r 4]
    let origin := [r 5, r 6, r 7, r 8]
    let t := (s.ctx ck).tmpls.get (r 1).toNat
    if (r 0).toNat / 16 != 0 then s.raise cSPACE_LIMIT (r 0) (memInfo 5 0 0 w.step.idx 0) m
    else
    match copyReason (r 1) (r 9) t with
    | some n => s.raise cCOPY_TEMPLATE (r 1) (BitVec.ofNat 32 n) m
    | none =>
    if 4 ≤ (r 4).toNat / 2 ^ 24 then s.raise cLAYOUT_WORD 0#32 0#32 m
    else
      let job0 : CopyJob :=
        { live := true, warp := s.actor, gang := w.gang, ck := ck, sup := w.isSup, sec := quadSection w.quad, chan := (r 0).toNat,
          cluster := quadCluster w.quad, tidx := (r 1).toNat, tmpl := t, layout := layout, origin := origin,
          bar := if r 9 == 0xFFFFFFFF#32 then none else some (r 9).toNat }
      let vas := job0.elems.map (·.near)
      let en := elemBytes (tmNear t)
      let sp : Space := if job0.nearGang then .gang else .scr
      let macc := if job0.inward then 1 else 0
      let acc : Access := if job0.inward then .write else .read
      let lim := if job0.nearGang then g.gangSize else 2 ^ 32
      let beyond := vas.filter (fun v => lim < v + en)
      if !beyond.isEmpty then
        let a := beyond.foldl min (beyond.headD 0)
        s.raise cSPACE_LIMIT (BitVec.ofNat 32 a) (memInfo (spaceCode sp) macc 0 w.step.idx a) m
      else
      match (if job0.nearGang then none else s.pageFail acc vas) with
      | some (c, a) => s.raise c (BitVec.ofNat 32 a) (memInfo (spaceCode sp) macc 0 w.step.idx a) m
      | none =>
        if 256 ≤ s.copiesOut s.actor || s.caps.copyQ ≤ s.engineLoad (quadSection w.quad) || s.olderRejected kENGINE then s.reject kENGINE
        else s.performs o.e (fun s =>
          let job : CopyJob := { job0 with pages := if job0.nearGang then [] else s.pageLocs acc vas }
          let s := (s.fenced s.actor).settleEngine s.actor
          let (id, s) := s.fresh
          let (rep, s) := s.holdScalars o.d.toNat (if o.v then 0 else 2)
          let s := if job.dir = 0 then job.footprint.foldl (fun s l => s.makeAbsent job.cluster (job.lineKey l)) s else s
          let pres : List EngAcc := if job.dir = 0 then job.footprint.map (fun l => { sp := 2, bit := 27, va := 128 * l, len := 128 }) else []
          let hits := s.engineHits ck pres
          let s := ({ s with copies := s.copies.set id { job with reply := rep, hits := hits } }).hitStop ck w.gang hits
          let s := s.updMe (fun w => { w with unsealed := w.unsealed ++ [{ copy := id }] })
          s.finish o.e (some []) [.reply rep] [])))

/-! ### The engine (R198 to R201) -/

/-- Is it the oldest copy of its gang on its channel (R201)? -/
def State.copyFirst (s : State) (id : Nat) : Bool :=
  let j := s.copies.get id
  j.live && s.copies.all (fun e => !(e.2.live && e.1 < id && e.2.gang == j.gang && e.2.chan == j.chan))

/-- The rights that a copy needs on its far side. -/
def CopyJob.farAcc (j : CopyJob) : Access := if j.inward then .read else .write

/-- The translation of a far element: the one that the copy has taken of its page, else one by its engines' buffer. (DEDUCED, log 29:
unsafe.) -/
def State.farLoc (s : State) (j : CopyJob) (e : Elem) : Trans :=
  match j.farPages.lookup (e.far.toNat / 65536) with
  | some loc => .ok (loc + e.far.toNat % 65536) false
  | none => s.translateAt (copyUnitOf j.sec) (j.ck / 64) (j.ck % 64) .hbm j.farAcc j.sup e.far.toNat

/-- The far pages of elements whose translation a copy takes with them (R407). (DEDUCED, log 29: unsafe.) -/
def State.farUsed (s : State) (j : CopyJob) (es : List Elem) : List (Nat × Nat) :=
  (((es.map (fun e => e.far.toNat / 65536)).eraseDups).filter (fun pg => (j.farPages.lookup pg).isNone)).filterMap (fun pg =>
    match s.translateAt (copyUnitOf j.sec) (j.ck / 64) (j.ck % 64) .hbm j.farAcc j.sup (65536 * pg) with
    | .ok loc _ => some (pg, loc)
    | .cause _ => none)

/-- A copy keeps the far translations that it has taken. -/
def State.noteFar (s : State) (copy : Nat) (fs : List (Nat × Nat)) : State :=
  let j := s.copies.get copy
  let s := fs.foldl (fun s f => s.tlbFill (copyUnitOf j.sec) (j.ck / 64) (j.ck % 64) .hbm (65536 * f.1)) s
  if fs.isEmpty then s else { s with copies := s.copies.set copy { j with farPages := j.farPages ++ fs } }

/-- Is a source byte of a near or far range poisoned? -/
def State.rangePoison (s : State) (gang : Bool) (loc n : Nat) : Bool :=
  (List.range n).any (fun i => if gang then s.poisonUnit.get ((loc + i) / 16) else s.poisonLine.get ((loc + i) / 128))

/-- The near unit of an element; whether the engine has moved it ahead of its line. -/
def CopyJob.unitOf (j : CopyJob) (e : Elem) : Nat := j.nearLoc e.near / 16
def CopyJob.ahead (j : CopyJob) (unit : Nat) : Bool := j.early.any (fun x => x.1 == unit)

/-- A near element as the engine reads it: each unit is read once. -/
def State.nearRead (s : State) (j : CopyJob) (e : Elem) : Nat :=
  let loc := j.nearLoc e.near
  match j.early.lookup (loc / 16) with
  | some b => bytesNat ((b.drop (loc % 16)).take (elemBytes (tmNear j.tmpl)))
  | none => s.read loc (elemBytes (tmNear j.tmpl))

/-- The cause with which an element fails, if it does (R198). -/
def State.elemFail (s : State) (j : CopyJob) (e : Elem) : Option Nat :=
  match s.farLoc j e with
  | .cause c => some c
  | .ok loc _ =>
    if j.inward then (if s.rangePoison false loc (elemBytes (tmFar j.tmpl)) then some cPOISON else none)
    else if j.ahead (j.unitOf e) then none
    else
      let k := j.lineKey (e.near / 128)
      if j.dir = 1 && s.lines.get k == .failed then some cLINE_FAILED
      else if s.rangePoison j.nearGang (j.nearLoc e.near) (elemBytes (tmNear j.tmpl)) then some cPOISON else none

/-- The elements of one near line that the copy moves. -/
def CopyJob.lineElems (j : CopyJob) (line : Nat) : List Elem := j.elems.filter (fun e => e.inb && e.near / 128 == line)

/-- Has the element moved: with its line, or inward ahead of it? -/
def CopyJob.moved (j : CopyJob) (e : Elem) : Bool := j.landed.contains (e.near / 128) || (j.inward && j.ahead (j.unitOf e))

/-- Must the engine wait for the element's source line to be present (R198)? -/
def State.lineAway (s : State) (j : CopyJob) (e : Elem) : Bool :=
  j.dir = 1 && !j.ahead (j.unitOf e) && s.lines.get (j.lineKey (e.near / 128)) == .absent

/-- The first element that would fail now, of those not yet moved: its cause. A line whose source is absent is not read. -/
def State.copyFailure (s : State) (j : CopyJob) : Option Nat :=
  firstSome (fun e => if j.moved e || s.lineAway j e then none else s.elemFail j e) (j.elems.filter (·.inb))

/-- The far bytes that elements later in the order, of lines that have landed, have written: they stand (R196). -/
def State.farAfter (s : State) (j : CopyJob) (rest : List Elem) : List Nat :=
  (rest.filter (fun e => e.inb && j.landed.contains (e.near / 128))).flatMap (fun e => match s.farLoc j e with
    | .ok loc _ => (List.range (elemBytes (tmFar j.tmpl))).map (loc + ·)
    | .cause _ => [])

/-- The cells that one element writes, its flags, and the bytes that it counts. -/
def State.moveElem (s : State) (j : CopyJob) (e : Elem) (rest : List Elem) : List (Nat × Byte) × Nat × Nat :=
  let t := j.tmpl
  let ef := elemBytes (tmFar t)
  let en := elemBytes (tmNear t)
  match s.farLoc j e with
  | .cause _ => ([], 0, 0)
  | .ok far _ =>
    let near := j.nearLoc e.near
    if j.inward then
      let r := convertCode (tmNear t) (tmFar t) (tmRnd t) (tmSat t) (s.read far ef)
      (((List.range en).map (near + ·)).zip (natBytes en r.1), r.2, en)
    else
      let r := convertCode (tmFar t) (tmNear t) (tmRnd t) (tmSat t) (s.nearRead j e)
      let later := s.farAfter j rest
      ((((List.range ef).map (far + ·)).zip (natBytes ef r.1)).filter (fun c => !later.contains c.1), r.2, ef)

/-- The cells, flags and bytes of the elements that `p` picks, in order. -/
def State.moveElems (s : State) (j : CopyJob) (p : Elem → Bool) : List Elem → List (Nat × Byte) × Nat × Nat
  | [] => ([], 0, 0)
  | e :: rest =>
    if e.inb && p e then
      let a := s.moveElem j e rest
      let b := s.moveElems j p rest
      (a.1 ++ b.1, a.2.1 ||| b.2.1, a.2.2 + b.2.2)
    else s.moveElems j p rest

/-- What the landing of one near line moves. -/
def State.moveLine (s : State) (j : CopyJob) (line : Nat) : List (Nat × Byte) × Nat × Nat :=
  s.moveElems j (fun e => e.near / 128 == line && !j.moved e) j.elems

/-- May a line of a copy land now? -/
def State.canLand (s : State) (id line : Nat) : Bool :=
  let j := s.copies.get id
  s.copyFirst id && j.work.contains line && !j.landed.contains line
  && (j.lineElems line).all (fun e => j.moved e || (!s.lineAway j e && (s.elemFail j e).isNone))

/-- A line that is absent becomes present or failed; any other keeps its state (R184). -/
def State.settleLine (s : State) (key : Nat) (st : LineState) : State :=
  if s.lines.get key == .absent then s.setLine key st else s

/-- The engine settles near lines, each with its address / 128 and its key: those that change are its presence accesses (R362). -/
def State.settles (s : State) (ls : List (Nat × Nat)) (st : LineState) : List EngAcc × State :=
  ((ls.filter (fun l => s.lines.get l.2 == .absent)).map (fun l => { sp := 2, bit := 27, va := 128 * l.1, len := 128 }),
    ls.foldl (fun s l => s.settleLine l.2 st) s)

/-- Near lines of a copy, each with its key. -/
def CopyJob.keyed (j : CopyJob) (ls : List Nat) : List (Nat × Nat) := ls.map (fun l => (l, j.lineKey l))

/-- The clusters whose L1 a write of a copy updates: the one it was issued on, and the one its warp is on now. -/
def State.jobClusters (s : State) (cluster warp : Nat) : List Nat := [cluster, quadCluster (s.warp warp).quad]

/-- The accesses of elements to near memory. -/
def CopyJob.nearAccs (j : CopyJob) (es : List Elem) : List EngAcc :=
  es.map (fun e => { sp := if j.nearGang then 1 else 2, bit := if j.inward then 25 else 24, va := e.near, len := elemBytes (tmNear j.tmpl) })

/-- The engine writes what it has moved, and meets the watchpoints (R198, R366): `f` is the job's own progress. -/
def State.copyMoves (s : State) (copy : Nat) (x : List (Nat × Byte) × Nat × Nat) (accs : List EngAcc) (f : CopyJob → CopyJob) : State :=
  let j := s.copies.get copy
  let hits := newHits j.hits (s.engineHits j.ck accs)
  let s := s.putCells (s.jobClusters j.cluster j.warp) (j.inward && j.nearGang) x.1
  ({ s with copies := s.copies.set copy (f { j with flags := j.flags ||| x.2.1, bytes := j.bytes + x.2.2, hits := j.hits ++ hits }) }).hitStop j.ck j.gang hits

/-- The last byte that a copy writes into a near line has landed: the line is present, and clean if the copy writes all of it (R198,
R354). -/
def State.lineLands (s : State) (copy line : Nat) : State :=
  let j := s.copies.get copy
  let x := if j.dir = 0 then s.settles (j.keyed [line]) .present else ([], s)
  let s := x.2.copyMoves copy ([], 0, 0) x.1 (fun j => { j with landed := line :: j.landed })
  if j.dir = 0 then
    s.cleanCells false ((j.lineElems line).flatMap (fun e => (List.range (elemBytes (tmNear j.tmpl))).map (fun i => (j.nearLoc e.near + i, 0#8))))
  else s

/-- COPY_LINE_LAND (R198): the elements of one near line that are left are moved. (DEDUCED, log 29: unsafe.) -/
def execCopyLineLand (copy line : Nat) (s : State) : Out :=
  .next (
    if !s.canLand copy line || s.frozen (s.copies.get copy).gang then s
    else
      let j := s.copies.get copy
      let es := (j.lineElems line).filter (fun e => !j.moved e)
      ((s.noteFar copy (s.farUsed j es)).copyMoves copy (s.moveLine j line) (j.nearAccs es) id).lineLands copy line)

/-- The elements of a near unit that have not moved. -/
def CopyJob.unitElems (j : CopyJob) (unit : Nat) : List Elem := j.elems.filter (fun e => e.inb && !j.moved e && j.unitOf e == unit)

/-- May the engine move a near unit before the rest of its line: one of several in a line that has not landed? -/
def State.canMoveUnit (s : State) (id unit : Nat) : Bool :=
  let j := s.copies.get id
  let es := j.unitElems unit
  s.copyFirst id && !es.isEmpty && !j.ahead unit && !s.frozen j.gang
  && es.all (fun e => !s.lineAway j e && (s.elemFail j e).isNone)

/-- The engine moves one near unit: inward it writes it, and a line whose last unit it is lands; outward it reads it (R198). -/
def State.copyUnit (s : State) (copy unit : Nat) : State :=
  if !s.canMoveUnit copy unit then s
  else
    let j := s.copies.get copy
    let accs := j.nearAccs (j.unitElems unit)
    if j.inward then
      let t := (s.noteFar copy (s.farUsed j (j.unitElems unit))).copyMoves copy (s.moveElems j (fun e => !j.moved e && j.unitOf e == unit) j.elems) accs (fun j => { j with early := (unit, []) :: j.early })
      let k := t.copies.get copy
      (((j.unitElems unit).map (fun e => e.near / 128)).eraseDups.filter (fun l => (k.lineElems l).all k.moved)).foldl (fun s l => s.lineLands copy l) t
    else s.copyMoves copy ([], 0, 0) accs (fun j => { j with early := (unit, s.bytes (16 * unit) 16) :: j.early })

/-- The status pair of R199. -/
def statusPair (flags cause : Nat) (seq : Word) (bytes : Nat) : List Word :=
  [BitVec.ofNat 32 bytes, BitVec.ofNat 32 (2 ^ 31 + flags % 128 * 2 ^ 24 + cause * 2 ^ 16 + seq.toNat % 65536)]

/-- The batch that holds a copy; 0 while it is unsealed. -/
def Warp.batchOf (w : Warp) (id : Nat) : Nat :=
  ((w.batches.find? (fun e => e.2.any (fun c => c.copy == id))).map (·.1)).getD 0

/-- The barrier effect of a completion (R200): bytes arrive, or the barrier breaks. -/
def State.engineBarrier (s : State) (g : Nat) (bar : Option Nat) (failed : Bool) (bytes : Nat) : State :=
  match bar with
  | none => s
  | some b =>
    let p := (s.gang g).place
    if p == .retired || p == .absent then s
    else if failed then s.requestBreak g b 2 else s.byteArrival g b bytes

/-- May a completion act now: its message can be posted (R295)? -/
def State.canFinishCopy (s : State) (j : CopyJob) : Bool :=
  !s.frozen j.gang && (!tmPortEn j.tmpl || s.canPost (j.ck / 64) (j.ck % 64) (tmPort j.tmpl))

/-- A copy completes, with its cause: one event of status, barrier and message (R199, R200). -/
def State.finishCopy (s : State) (id cause : Nat) : State :=
  let j := s.copies.get id
  let p := j.ck / 64
  let c := j.ck % 64
  let (seq, s) := s.seqNext p
  let s := { s with copies := s.copies.erase id }
  let pair := statusPair j.flags cause seq j.bytes
  let batch := (s.warp j.warp).batchOf id
  let mark (l : List CopyRef) : List CopyRef := l.map (fun x => if x.copy == id then { x with done := true, flags := j.flags % 128, cause := cause, seq := seq } else x)
  let s := if (s.warp j.warp).live then s.updWarp j.warp (fun w => { w with unsealed := mark w.unsealed, batches := w.batches.mapVals (fun _ l => mark l) }) else s
  let s := s.scalarsReach j.warp j.reply pair
  let s := if cause = cCOPY_ERROR then s.record p c cCOPY_ERROR (j.layout.getD 0 0#32) (BitVec.ofNat 32 j.tidx) (BitVec.ofNat 32 (s.gang j.gang).gangId) (BitVec.ofNat 32 (s.warp j.warp).wid) else s
  let s := s.engineBarrier j.gang j.bar (cause != 0) j.bytes
  let s := if tmPortEn j.tmpl then
      s.postSeq p c (tmPort j.tmpl) { seq := seq, kind := 3, sender := j.chan + 16 * j.sec, payload := pair ++ [BitVec.ofNat 32 j.tidx, j.layout.getD 0 0#32, 0#32, 0#32] }
    else s
  s.hitEvents j.ck j.gang batch seq j.hits

/-- The near lines that have not landed settle as the copy ends: those that hold a byte to be written as `st`, the others present (R184,
R198). -/
def State.copySettles (s : State) (copy : Nat) (st : LineState) : State :=
  let j := s.copies.get copy
  if j.dir = 0 then
    let rest := j.footprint.filter (fun l => !j.landed.contains l)
    let x := s.settles (j.keyed (rest.filter j.work.contains)) st
    let y := x.2.settles (j.keyed (rest.filter (fun l => !j.work.contains l))) .present
    y.2.copyMoves copy ([], 0, 0) (x.1 ++ y.1) id
  else s

/-- COPY_COMPLETE (R199, R200). -/
def execCopyComplete (copy : Nat) (s : State) : Out :=
  let j := s.copies.get copy
  .next (
    if s.copyFirst copy && j.work.all j.landed.contains && s.canFinishCopy j then
      (s.copySettles copy .present).finishCopy copy 0
    else s)

/-- COPY_FAIL (R198): by what the engine meets, or by an error of its own. -/
def execCopyFail (copy : Nat) (internal : Bool) (s : State) : Out :=
  let j := s.copies.get copy
  .next (
    match (if internal then some cCOPY_ERROR else s.copyFailure j) with
    | none => s
    | some cause =>
      if !(s.copyFirst copy && s.canFinishCopy j) then s
      else (s.copySettles copy .failed).finishCopy copy cause)

/-! ### Batches (R202, R203) -/

/-- The batch number of an instruction. -/
def State.batchNo (s : State) (o : NOp) : Nat := (s.srcW o.s0 0).toNat % 16

/-- The CAUSE of the failed copy with the lowest sequence number. -/
def batchCause (b : List CopyRef) : Nat :=
  match b.filter (fun c => c.done && c.cause != 0) with
  | [] => 0
  | x :: r => (r.foldl (fun a c => if seqBefore c.seq a.seq then c else a) x).cause

/-- A result word of R203. -/
def batchWord (n : Nat) (b : List CopyRef) : Nat := n * 65536 + batchFlags b * 256 + batchCause b

/-- CSEAL (R203). -/
def execCseal (o : NOp) (s : State) : Out :=
  .next (s.checked (.cseal o) s.me.step.issue (fun s => s.finish o.e none [.seal (s.batchNo o)] []))

/-- CWAIT (R203). -/
def execCwait (o : NOp) (s : State) : Out :=
  let m := s.me.step.issue
  .next (s.checked (.cwait o) m (fun s =>
    let n := s.batchNo o
    let b := s.me.batches.get n
    if !b.all (·.done) then s.park (.batch n)
    else
      let x := batchWord b.length b
      (s.logRead s.actor m (natBytes 4 x)).finish o.e (some (Lanes.splat (BitVec.ofNat 32 x)))
        ((if o.v then [] else [.scal o.d.toNat (BitVec.ofNat 32 x)]) ++ [.batchDone n]) []))

/-- CPOLL (R203). -/
def execCpoll (o : NOp) (s : State) : Out :=
  let m := s.me.step.issue
  .next (s.checked (.cpoll o) m (fun s =>
    let n := s.batchNo o
    let b := s.me.batches.get n
    let all := b.all (·.done)
    let x := if all then Nat.lor (2 ^ 31) (batchWord b.length b) % 2 ^ 32 else batchWord (b.filter (fun c => !c.done)).length b
    (s.logRead s.actor m (natBytes 4 x)).finish o.e (some (Lanes.splat (BitVec.ofNat 32 x)))
      ((if o.v then [] else [.scal o.d.toNat (BitVec.ofNat 32 x)]) ++ (if all then [.batchDone n] else [])) []))

/-! ### Collectives (R215 to R218) -/

/-- The type that a collective computes in. -/
def collTy (f : BitVec 6) : Ty :=
  match f.toNat with
  | 0 => .f32 | 1 => .f64 | 2 => .f16x2 | 3 => .bf16x2 | 4 => .i32 | 5 => .n32 | 6 => .i16x2 | 7 => .n16x2
  | 8 => .i8x4 | 9 => .n8x4 | 10 => .i64 | _ => .n64

/-- The members' ranks in increasing order; a launch in no ensemble is one member at rank 0. -/
def State.collRanks (s : State) (ens : Option Nat) : List Nat :=
  match ens with
  | none => [0]
  | some e => ((s.ens.get e).members.filter (fun x => x.2.live)).map (·.1)

/-- The reasons of COLL_FORM (R218). -/
def collReason (o : XOp) (ranks : List Nat) (ctl src dst count bar : Nat) : Option Nat :=
  let kind := ctl % 16
  let opr := ctl / 16 % 16
  let e := elemBytes o.afmt
  let P := ranks.length
  let sb := count * e * (if kind = 1 then P else 1)
  let db := count * e * (if kind = 2 then P else 1)
  if ctl / 2 ^ 20 != 0 || ctl / 2 ^ 14 % 4 != 0 || 3 < kind || 5 < opr then some 1
  else if kind = 3 && !ranks.contains (ctl / 256 % 64) then some 2
  else if count = 0 || 2 ^ 24 < count then some 3
  else if src % 16 != 0 || dst % 128 != 0 || (src < dst + db && dst < src + sb && !(src == dst && (kind == 0 || kind == 3))) then some 4
  else if (3 ≤ opr && !fmtIsInt o.afmt) || (opr != 0 && 2 ≤ kind) then some 5
  else if 31 < bar && bar != 0xFFFFFFFF then some 6
  else none

/-- Addresses that name each 64 KiB page of a range. -/
def rangeVas (a n : Nat) : List Nat :=
  a :: ((List.range ((a + n - 1) / 65536 - a / 65536)).map (fun i => (a / 65536 + i + 1) * 65536))

/-- The lines of a range at a page map: keys of the table of line states. -/
def rangeKeys (pages : List (Nat × Nat)) (a n : Nat) : List Nat :=
  (List.range ((a + n - 1) / 128 - a / 128 + 1)).map (fun i => pageLoc pages (128 * (a / 128 + i)) / 128)

/-- COLL (R215, R216, R218). -/
def execColl (o : XOp) (s : State) : Out :=
  let m := s.me.step.issue
  .next (s.checked (.coll o) m (fun s =>
    let w := s.me
    let l := s.launch (s.gangOf w).launch
    let r (k : Nat) : Nat := match o.s0 with
      | .scal n => (w.sword (n.toNat + k)).toNat
      | _ => 0
    let ranks := s.collRanks l.ens
    let rank := if l.ens.isNone then 0 else l.rank
    let kind := r 0 % 16
    let e := elemBytes o.afmt
    let sb := r 4 * e * (if kind = 1 then ranks.length else 1)
    let db := r 4 * e * (if kind = 2 then ranks.length else 1)
    let from_ := if kind = 3 && r 0 / 256 % 64 != rank then [] else rangeVas (r 2) sb
    match collReason o ranks (r 0) (r 2) (r 3) (r 4) (r 5) with
    | some n => s.raise cCOLL_FORM 0#32 (BitVec.ofNat 32 n) m
    | none =>
    match s.pageFail .read from_ with
    | some (c, a) => s.raise c (BitVec.ofNat 32 a) (memInfo 2 0 0 w.step.idx a) m
    | none =>
    match s.pageFail .write (rangeVas (r 3) db) with
    | some (c, a) => s.raise c (BitVec.ofNat 32 a) (memInfo 2 1 0 w.step.idx a) m
    | none =>
      if s.caps.copyQ ≤ s.engineLoad (quadSection w.quad) || s.olderRejected kENGINE then s.reject kENGINE
      else s.performs o.e (fun s =>
        let tag := BitVec.ofNat 32 (r 1)
        let sp := s.pageLocs .read from_
        let dp := s.pageLocs .write (rangeVas (r 3) db)
        let c := quadCluster w.quad
        let nth := match l.ens with
          | some en => ((s.ens.get en).members.get rank).tags.get (r 1)
          | none => 0
        let s := (s.fenced s.actor).settleEngine s.actor
        let s := match l.ens with
          | some en => { s with ens := s.ens.upd en (fun x => { x with members := x.members.upd rank (fun y => { y with tags := y.tags.upd (r 1) (· + 1) }) }) }
          | none => s
        let (id, s) := s.fresh
        let (rep, s) := s.holdScalars o.d.toNat (if o.v then 0 else 2)
        let s := (rangeKeys dp (r 3) db).foldl (fun s k => s.makeAbsent c k) s
        let ck := s.ckOf w
        let pres : List EngAcc := (List.range ((db + 127) / 128)).map (fun i => { sp := 2, bit := 27, va := r 3 + 128 * i, len := 128 })
        let job : CollJob :=
          { live := true, warp := s.actor, gang := w.gang, ck := ck, sec := quadSection w.quad, chan := r 0 / 2 ^ 16 % 16, cluster := c,
            ens := l.ens, rank := rank, kind := kind, opr := r 0 / 16 % 16, root := r 0 / 256 % 64, efmt := o.afmt, afmt := o.bfmt,
            count := r 4, tag := tag, nth := nth, src := r 2, dst := r 3, srcPages := sp, dstPages := dp, dstBytes := db,
            bar := if r 5 = 0xFFFFFFFF then none else some (r 5), reply := rep, hits := s.engineHits ck pres }
        (({ s with colls := s.colls.set id job }).hitStop ck w.gang job.hits).finish o.e (some []) [.reply rep] [])))

/-- Elements of a member's source under P members: a broadcast has one at its root alone (R216). -/
def collElems (kind root rank count P : Nat) : Nat := if kind = 3 && root != rank then 0 else if kind = 1 then count * P else count

/-- Bytes of a member's source. -/
def CollJob.srcBytes (j : CollJob) (P : Nat) : Nat := collElems j.kind j.root j.rank j.count P * elemBytes j.efmt

/-- The lines of a member's source. -/
def CollJob.srcKeys (j : CollJob) (P : Nat) : List Nat := if j.srcBytes P = 0 then [] else rangeKeys j.srcPages j.src (j.srcBytes P)

/-- The source element codes of a member. -/
def State.collData (s : State) (j : CollJob) (P : Nat) : List Nat :=
  let e := elemBytes j.efmt
  (List.range (j.srcBytes P / e)).map (fun i => s.read (pageLoc j.srcPages (j.src + e * i)) e)

/-- The matched collectives of the members on this package (R216). -/
def State.collMatch (s : State) (j : CollJob) (id : Nat) : List (Nat × CollJob) :=
  if j.ens.isNone then [(id, j)]
  else s.colls.filter (fun x => x.2.live && !x.2.aborted && x.2.ens == j.ens && x.2.tag == j.tag && x.2.nth == j.nth)

/-- One member's part, wherever it runs. -/
structure CollPart where
  rank : Nat
  kind : Nat
  opr : Nat
  root : Nat
  efmt : BitVec 6
  afmt : BitVec 6
  count : Nat
  data : List Nat

/-- Do two parts agree (R218)? -/
def CollPart.agrees (a b : CollPart) : Bool :=
  a.kind == b.kind && a.opr == b.opr && a.efmt == b.efmt && a.afmt == b.afmt && a.count == b.count && (a.kind != 3 || a.root == b.root)

/-- Do the data have the elements that the part's kind needs? -/
def CollPart.dataOk (p : CollPart) (P : Nat) : Bool := (p.kind == 3 && p.rank != p.root) || p.data.length == collElems p.kind p.root p.rank p.count P

/-- One reduced element over ranks 0 to 63, with its flags (R217). A contribution that is a signalling NaN raises INVALID where it enters
the tree (R90). (DEDUCED, log 30: unsafe.) -/
def collElem (e a : BitVec 6) (opr : Nat) (vals : List (Option Nat)) : Flagged :=
  let conv := vals.map (fun v => v.map (fun c => convert (Fmt.ofCode a) (Fmt.ofCode e) .rne false c))
  let r := treeReduce (redOp (collTy a) .rne opr) 6 (conv.map (fun v => v.map (·.1))) 0
  let x := convert (Fmt.ofCode e) (Fmt.ofCode a) .rne false (r.1.getD 0)
  (x.1, r.2 ||| x.2 ||| conv.foldl (fun f v => f ||| (v.map (·.2)).getD 0) 0)

/-- The whole result of a match, before a reduce-scatter deals out its blocks: the codes and the flags. (DEDUCED, log 30: unsafe.) -/
def collResult (parts : List CollPart) (j : CollJob) : List Nat × Nat :=
  let at_ (r i : Nat) : Option Nat := (parts.find? (fun p => p.rank == r)).map (fun p => p.data.getD i 0)
  if j.kind = 2 then (parts.flatMap (·.data), 0)
  else if j.kind = 3 then (((parts.find? (fun p => p.rank == j.root)).map (·.data)).getD [], 0)
  else
    let n := j.count * (if j.kind = 1 then parts.length else 1)
    let rs := (List.range n).map (fun i => collElem j.efmt j.afmt j.opr ((List.range 64).map (fun r => at_ r i)))
    (rs.map (·.1), rs.foldl (fun f r => f ||| r.2) 0)

/-- Are the source lines of a member readable now: none absent but those that it made absent itself, none failed or poisoned? (DEDUCED, log 30: unsafe.) -/
def State.collReadable (s : State) (j : CollJob) (P : Nat) : Bool :=
  let own := rangeKeys j.dstPages j.dst j.dstBytes
  (j.srcKeys P).all (fun k =>
    (own.contains k || s.lines.get k == .present) && !s.poisonLine.get k)

/-- One member's completion (R199, R200, R216). No field of COLL names a port, so no message of
KIND 4 is posted. (DEDUCED, log 80: unsafe.) -/
def State.finishColl (s : State) (id cause flags bytes : Nat) : State :=
  let j := s.colls.get id
  let (seq, s) := s.seqNext (j.ck / 64)
  let s := { s with colls := s.colls.erase id }
  let s := s.scalarsReach j.warp j.reply (statusPair flags cause seq bytes)
  (s.engineBarrier j.gang j.bar (cause != 0) bytes).hitEvents j.ck j.gang 0 seq j.hits

/-- May each member's completion act? -/
def State.collReady (s : State) (j : CollJob) : Bool := !s.frozen j.gang

/-- A member's destination: the cells of its result. -/
def CollJob.cells (j : CollJob) (P pos : Nat) (codes : List Nat) : List (Nat × Byte) :=
  let e := elemBytes j.efmt
  let mine := if j.kind = 1 then (codes.drop (pos * j.count)).take j.count else if j.kind = 2 then codes.take (j.count * P) else codes.take j.count
  (mine.zipIdx).flatMap (fun x => (natBytes e x.1).zipIdx.map (fun b => (pageLoc j.dstPages (j.dst + e * x.2 + b.2), b.1)))

/-- The parts of a match: those of this package's members as they read now, the peers' as given. -/
def State.collParts (s : State) (mine : List (Nat × CollJob)) (ranks : List Nat) (peers : List PeerPart) : List CollPart :=
  ranks.filterMap (fun r =>
    match mine.find? (fun x => x.2.rank == r) with
    | some (_, x) => some ({ rank := r, kind := x.kind, opr := x.opr, root := x.root, efmt := x.efmt, afmt := x.afmt, count := x.count, data := s.collData x ranks.length } : CollPart)
    | none => (peers.find? (fun p => p.rank == r)).map (fun p => { rank := r, kind := p.kind, opr := p.opr, root := p.root, efmt := p.efmt, afmt := p.afmt, count := p.count, data := p.data.map (·.toNat) }))

/-- The result that every member receives; none where the parts do not agree (R218). -/
def collOutcome (parts : List CollPart) (j : CollJob) : Option (List Nat × Nat) :=
  match parts with
  | [] => none
  | p0 :: _ => if parts.all (fun p => p.agrees p0 && p.dataOk parts.length) then some (collResult parts j) else none

/-- Does the remote member of a rank run on another package? -/
def State.collAway (s : State) (j : CollJob) (r : Nat) : Bool :=
  match j.ens with
  | some e => ((s.ens.get e).members.get r).launch.isNone
  | none => false

/-- Do the members of a match agree (R218)? -/
def partsAgree (parts : List CollPart) : Bool := parts.all (fun p => p.agrees (parts.headD p))

/-- May the match be reduced, or be found to disagree, now: every member has issued it, those of other packages with the given parts, and
for a reduction every source can be read? Once it has been reduced no source is read again. -/
def State.collGathered (s : State) (id : Nat) (peers : List PeerPart) : Bool :=
  let j := s.colls.get id
  let ranks := s.collRanks j.ens
  let mine := s.collMatch j id
  j.live && !j.aborted && mine.all (fun x => s.collReady x.2)
  && (j.result.isSome
    || ((s.collParts mine ranks peers).length == ranks.length
        && (ranks.filter (fun r => !mine.any (fun x => x.2.rank == r))).all (s.collAway j)
        && (!partsAgree (s.collParts mine ranks peers)
          || ((s.collParts mine ranks peers).all (fun p => p.dataOk ranks.length) && mine.all (fun x => s.collReadable x.2 ranks.length)))))

/-- The sources have been read: the result stands in every member's job, with the watch hits of the reads. -/
def State.collReduce (s : State) (id : Nat) (r : List Nat × Nat) : State :=
  let j := s.colls.get id
  let P := (s.collRanks j.ens).length
  (s.collMatch j id).foldl (fun s x =>
    let hits := newHits x.2.hits (s.engineHits x.2.ck (if x.2.srcBytes P = 0 then [] else [{ sp := 2, bit := 24, va := x.2.src, len := x.2.srcBytes P }]))
    ({ s with colls := s.colls.upd x.1 (fun y => { y with result := some r, hits := y.hits ++ hits }) }).hitStop x.2.ck x.2.gang hits) s

/-- Units of the destination that are still to be written. -/
def CollJob.left (j : CollJob) : List Nat := (List.range ((j.dstBytes + 15) / 16)).filter (fun k => !j.landed.contains k)

/-- The lines of a member's destination, by number from its start: address / 128 and key. -/
def CollJob.keyed (j : CollJob) (ls : List Nat) : List (Nat × Nat) := ls.map (fun l => (j.dst / 128 + l, pageLoc j.dstPages (j.dst + 128 * l) / 128))

/-- How many lines its destination has. -/
def CollJob.lineCount (j : CollJob) : Nat := (j.dstBytes + 127) / 128

/-- Lines of a member's destination settle. -/
def State.collSettles (s : State) (id : Nat) (ls : List Nat) (st : LineState) : State :=
  let j := s.colls.get id
  let x := s.settles (j.keyed ls) st
  let hits := newHits j.hits (s.engineHits j.ck x.1)
  ({ x.2 with colls := x.2.colls.upd id (fun y => { y with hits := y.hits ++ hits }) }).hitStop j.ck j.gang hits

/-- The engine writes the units `ks` of one member's destination (R198, R216); a line that is whole becomes present, and clean if all of it
is written (R354). -/
def State.collWrite (s : State) (id : Nat) (ks : List Nat) : State :=
  let j := s.colls.get id
  let ranks := s.collRanks j.ens
  let all := j.cells ranks.length (ranks.findIdx (· == j.rank)) ((j.result.map (·.1)).getD [])
  let cells := (all.zipIdx).filterMap (fun x => if ks.contains (x.2 / 16) then some x.1 else none)
  let hits := newHits j.hits (s.engineHits j.ck (ks.map (fun k => { sp := 2, bit := 25, va := j.dst + 16 * k, len := min 16 (j.dstBytes - 16 * k) })))
  let s := s.putCells (s.jobClusters j.cluster j.warp) false cells
  let s := { s with colls := s.colls.upd id (fun y => { y with landed := y.landed ++ ks, hits := y.hits ++ hits }) }
  let left := (s.colls.get id).left
  let whole := (ks.map (· / 8)).eraseDups.filter (fun l => !left.any (fun k => k / 8 == l))
  let s := s.cleanCells false ((all.zipIdx).filterMap (fun x => if whole.contains (x.2 / 128) then some x.1 else none))
  (s.hitStop j.ck j.gang hits).collSettles id whole .present

/-- May the engine of a member write a unit of its destination before the others? -/
def State.canWriteUnit (s : State) (id k : Nat) : Bool :=
  let j := s.colls.get id
  s.collGathered id [] && j.left.contains k
  && (j.result.isSome || (collOutcome (s.collParts (s.collMatch j id) (s.collRanks j.ens) []) j).isSome)

/-- The engine of a member writes one unit of its destination, having reduced the match if that has not been done. -/
def State.collUnit (s : State) (id k : Nat) : State :=
  if !s.canWriteUnit id k then s
  else
    let j := s.colls.get id
    let s := match j.result, collOutcome (s.collParts (s.collMatch j id) (s.collRanks j.ens) []) j with
      | none, some r => s.collReduce id r
      | _, _ => s
    s.collWrite id [k]

/-- COLL_COMPLETE (R216 to R218): every member has issued the match; its sources are reduced if they have not been, and each member
on this package completes, or the engines only keep the result and go on to write it. (DESIGN CHOICE, log 66: unsafe.) -/
def execCollComplete (coll : Nat) (peers : List PeerPart) (s : State) : Out :=
  let j := s.colls.get coll
  let ranks := s.collRanks j.ens
  let mine := s.collMatch j coll
  .next (
    if !s.collGathered coll peers then s
    else match (if j.result.isSome then j.result else collOutcome (s.collParts mine ranks peers) j) with
      | none => mine.foldl (fun s x => (s.collSettles x.1 (List.range x.2.lineCount) .present).finishColl x.1 cCOLL_FORM 0 0) s
      | some r =>
        let s := if j.result.isSome then s else s.collReduce coll r
        let hold := j.result.isNone && s.holds.headD false
        let s := if j.result.isNone then { s with holds := s.holds.drop 1 } else s
        if hold then s
        else
          let s := mine.foldl (fun s x => s.collWrite x.1 (s.colls.get x.1).left) s
          mine.foldl (fun s x => s.finishColl x.1 0 r.2 x.2.dstBytes) s)

/-- One member's collective ends in a peer abort (R218): each destination line is present, with its old contents or its final result; one
that the engine had written in part is failed. -/
def State.abortColl (s : State) (coll : Nat) : State :=
  let j := s.colls.get coll
  let on (l : Nat) : Bool := j.landed.any (fun k => k / 8 == l)
  let off (l : Nat) : Bool := j.left.any (fun k => k / 8 == l)
  let ls := List.range j.lineCount
  (((s.collSettles coll (ls.filter (fun l => on l && off l)) .failed).collSettles coll (ls.filter (fun l => !on l)) .present)).finishColl coll
    cCOLL_PEER_ABORT 0 (j.landed.foldl (fun a k => a + min 16 (j.dstBytes - 16 * k)) 0)

/-- Has the collective an outstanding member on another package? -/
def State.collRemote (s : State) (j : CollJob) : Bool := (s.collRanks j.ens).any (fun r => r != j.rank && s.collAway j r)

/-- COLL_PEER_ABORT (R218): a collective whose peer or ensemble is gone ends; as an input it says that the context of a member on
another package was killed, and every member on this package ends. (DESIGN CHOICE, log 66: unsafe.) -/
def execCollPeerAbort (coll : Nat) (s : State) : Out :=
  let j := s.colls.get coll
  let s := if j.live && s.collRemote j then
      { s with colls := (s.collMatch j coll).foldl (fun m x => m.upd x.1 (fun y => { y with aborted := true })) s.colls }
    else s
  .next (if j.live && (s.colls.get coll).aborted && s.collReady j then s.abortColl coll else s)

end Sys2Proof.Machine
end

