-- ==== Sys2Proof/Machine/Isolation.lean ====
section
/-! DEFINITION. TLBINV and WIPE (R406 to R410), the requests of the control cores' mailbox (R399, R400, R426), page placement (R192,
R397), context creation (R393, R394, R414). -/
set_option autoImplicit false

namespace Sys2Proof.Machine

/-! ### TLBINV (R406, R407) -/

/-- The bytes of a window's base page, by the window's number. -/
def winBase (win : Nat) : Nat := if win == 3 then 4096 else 65536

/-- Drop the translations of a window of a context, of one base page or all, from every structure: the leaves whatever their size, and the
table entries that lead there; with them the decoded entries, loop captures and page checks that go with a code page (R75, R78, R407).
(DEDUCED, log 42: safe.) -/
def State.tlbDrop (s : State) (ck win : Nat) (page : Option Nat) : State :=
  let hit (n : Nat) : Bool := match page with
    | none => true
    | some x => n == x
  let within (size n : Nat) : Bool := match page with
    | none => true
    | some x => n * winBase win / size == x * winBase win / size
  let s := { s with
    tlb := s.tlb.keep (fun k e => !(k % 2 ^ 48 / 2 ^ 36 == 8 * ck + win && within e.size (k % 2 ^ 36)))
    walks := s.walks.keep (fun k _ => !(k % 2 ^ 58 / 2 ^ 46 == 8 * ck + win && (match page with
      | none => true
      | some x => x * winBase win / 2 ^ (k % 2 ^ 46 / 2 ^ 40) == k % 2 ^ 40))) }
  if win != 0 then s
  else
    let p := ck / 64
    let x := s.part p
    let s := { s with
      clusters := s.clusters.mapVals (fun c y =>
        if x.hasSec (clusterSection c) then
          { y with dcache := y.dcache.filter (fun t => !(t.tag.ck == ck && hit (t.tag.addr.toNat / 65536)))
                   icode := y.icode.keep (fun k _ => !(k / 2 ^ 25 == ck && hit (k % 2 ^ 25 / 512))) } else y)
      quads := s.quads.mapVals (fun q y =>
        if x.hasSec (quadSection q) && y.loopBuf.valid && y.loopBuf.ck == ck
          && (hit (y.loopBuf.start.toNat / 65536) || hit (y.loopBuf.last.toNat / 65536)) then { y with loopBuf := {} } else y) }
    s.updCtx ck (fun c => { c with codePages := c.codePages.keep (fun n _ => !hit n) })

/-- The operations of a context under way that hold a translation of a dropped range: copies by their near and far pages, collectives,
SENDMEM writes, WIPEs, memory operations, host stores (R407). -/
def State.tlbUsers (s : State) (ck win : Nat) (page : Option Nat) : List Nat :=
  let hit (n : Nat) : Bool := match page with
    | none => true
    | some x => n == x
  let scr := win == 1
  ((s.copies.filter (fun e => e.2.live && e.2.ck == ck
    && ((scr && !e.2.nearGang && e.2.pages.any (fun p => hit p.1)) || (win == 2 && e.2.farPages.any (fun p => hit p.1))))).map (·.1))
  ++ ((s.jobs.filter (fun e => e.2.live && e.2.ck == ck && e.2.kind == .wipe && (scr || win == 2))).map (·.1))
  ++ ((s.colls.filter (fun e => scr && e.2.live && e.2.ck == ck && (e.2.srcPages ++ e.2.dstPages).any (fun p => hit p.1))).map (·.1))
  ++ ((s.sends.filter (fun e => scr && e.2.live && e.2.ck == ck && (!e.2.gangSrc || (rangePages e.2.dst e.2.stage.length).any hit))).map (·.1))
  ++ ((s.portOps.filter (fun e => e.2.live && e.2.ck == ck && ((scr && e.2.space == 2) || (win == 3 && e.2.space == 4)))).map (·.1))
  ++ ((s.hostStores.filter (fun e => win == 3 && e.2.live && e.2.ck == ck)).map (·.1))

/-- Has every operation of a list ended? -/
def State.allEnded (s : State) (ids : List Nat) : Bool :=
  ids.all (fun n => !(s.copies.get n).live && !(s.jobs.get n).live && !(s.colls.get n).live && !(s.sends.get n).live && !(s.portOps.get n).live && !(s.hostStores.get n).live)

/-- What a context has read and written through its translations stands: every store has performed, its loads and matrix operations have
their values (R407). -/
def State.quiesce (s : State) (ck : Nat) : State :=
  let s := s.drainHeld (fun _ => true)
  let us := (s.warps.filter (fun e => e.2.live && s.ckOf e.2 == ck)).map (·.1)
  let s := us.foldl State.freeze s
  s.mapSrc (fun x => if us.contains x.warp then { x with late := [] } else x)

/-- TLBINV (R406, R407). (DEDUCED, log 42: safe.) -/
def execTlbinv (o : NOp) (s : State) : Out :=
  let m := s.me.step.issue
  .next (s.checked (.tlbinv o) m (fun s =>
    let w := s.me
    let ck := s.ckOf w
    let sel := (s.srcW o.s0 0).toNat
    let win := sel % 8
    let all := sel / 8 % 2 == 1
    let lo := (s.srcW o.s1 0).toNat
    let hi := (s.srcW o.s2 0).toNat
    let narrow := win == 0 || win == 1 || win == 5
    if 16 ≤ sel || win == 4 || win == 6 || win == 7 || (!all && narrow && hi != 0) then
      s.raise cILLEGAL_OP w.refusal.1 w.refusal.2 m
    else if s.jobsFull then s.reject kENGINE
    else s.performs o.e (fun s =>
      let s := ((s.fenced s.actor).release s.actor s.nextUid .part).quiesce ck
      let page := if all then none else some ((hi * 2 ^ 32 + lo) / winBase win)
      let waits := s.tlbUsers ck win page
      (s.tlbDrop ck win page).startJob o.e o.v o.d.toNat { kind := .tlbinv, waits := waits })))

/-- TLBINV_STATUS_WRITE (R407): the accesses through dropped entries have performed. -/
def execTlbinvStatusWrite (job : Nat) (s : State) : Out :=
  let j := s.jobs.get job
  .next (if j.kind == .tlbinv && s.jobReady job && s.allEnded j.waits then s.endJob job else s)

/-! ### WIPE (R408 to R410) -/

/-- WIPE (R408, R409). -/
def execWipe (o : XOp) (s : State) : Out :=
  let m := s.me.step.issue
  .next (s.checked (.wipe o) m (fun s =>
    let w := s.me
    let g := s.gangOf w
    let blk (k : Nat) : Nat := (w.sword (Src.num o.s0 + k)).toNat
    let kind := o.x.toNat % 4
    let gang := kind == 2
    let hi := blk 1
    let a := if kind = 1 then hi * 2 ^ 32 + blk 0 else blk 0
    let n := blk 2
    let unit := if gang then 128 else 65536
    let limit := if gang then g.gangSize else if kind = 1 then 2 ^ 40 else 2 ^ 32
    let sp := if gang then 1 else if kind = 1 then 6 else 2
    let win : Window := if kind = 1 then .hbm else .scr
    let fault (c at_ : Nat) : State := s.raise c (BitVec.ofNat 32 at_) (memInfo sp 1 (lowest m) w.step.idx at_) m
    if a % unit != 0 || n % unit != 0 || n = 0 then fault cMISALIGNED a
    else if (kind != 1 && hi != 0) || limit < a + n then fault cSPACE_LIMIT (if kind != 1 && hi != 0 then a else max a limit)
    else
      let pages := (List.range (n / 65536)).map (fun i => a + 65536 * i)
      let place (va : Nat) : Trans := s.translate g.part g.ctx win .write true va
      match (if gang then none else firstSome (fun va => match place va with
          | .cause c => some (c, va)
          | .ok _ _ => none) pages) with
      | some (c, va) => fault c va
      | none =>
        if s.jobsFull then s.reject kENGINE
        else s.performs o.e (fun s =>
          let s := (s.fenced s.actor).settleEngine s.actor
          let ranges := if gang then [(gangLoc w.gang a, n)] else pages.filterMap (fun va => match place va with
            | .ok loc _ => some (loc, 65536)
            | .cause _ => none)
          s.startJob o.e o.v o.d.toNat { kind := .wipe, ranges := ranges })))

/-- WIPE_COMPLETION (R410): the range reads zero, its lines are present, then the status is written. -/
def execWipeCompletion (job : Nat) (s : State) : Out :=
  let j := s.jobs.get job
  .next (if j.kind == .wipe && s.jobReady job then
    (if j.wiped then s else (s.quiesce j.ck).wipeNow job).endJob job else s)

/-! ### Pages of a partition (R192, R397 to R400) -/

/-- The section that holds a page of a partition (R192, R397). (DESIGN CHOICE, log 10: safe.) -/
def State.sectionOf (s : State) (p page : Nat) : Nat :=
  let x := s.part p
  let scr := scrPpa / 65536
  if page < scr then x.base + Config.hbmSection x.nsec page % max x.nsec 1
  else match s.placed.get (ppaLoc p (65536 * page) / 65536) with
    | 0 => x.base + (page - scr) / 2048
    | n + 1 => n

/-- PAGE_MIGRATION (R192): a scratchpad page moves to another section; bytes, lines, waits and queues stay as they are. -/
def execPageMigration (part page sec : Nat) (s : State) : Out :=
  let x := s.part part
  .next (
    if x.live && scrPpa / 65536 ≤ page && s.ppaInside part (65536 * page) && x.hasSec sec then
      { s with placed := s.placed.set (ppaLoc part (65536 * page) / 65536) (sec + 1) }
    else s)

/-- Free scratchpad pages, those of a preferred section first. -/
def State.freeScr (s : State) (p n : Nat) (pref : Option Nat) : List Nat :=
  let lo := scrPpa / 65536
  let total := 2048 * (s.part p).nsec
  match pref with
  | none => s.freePages p (fun _ => true) total lo n
  | some sec =>
    let a := s.freePages p (fun k => s.sectionOf p k == sec) total lo n
    a ++ s.freePages p (fun k => s.sectionOf p k != sec) total lo (n - a.length)

/-- Scratchpad or HBM pages that a context owns. -/
def State.pagesOf (s : State) (p c : Nat) (scr : Bool) : Nat :=
  ((s.pagesOwned p c).filter (fun k => (scrPpa / 65536 ≤ k) == scr)).length

/-! ### The mailbox (R265, R399, R400, R426) -/

/-- A request as the control cores read it: who asks, the block's address, its words. -/
structure MailReq where
  part : Nat
  ctx : Nat
  at_ : Nat
  w0 : Nat
  tag : Word
  w2 : Nat
  w3 : Word
  deriving Repr

def MailReq.opc (r : MailReq) : Nat := r.w0 % 256
def MailReq.port (r : MailReq) : Nat := r.w0 / 65536
def MailReq.n (r : MailReq) : Nat := r.w2 % 256

/-- One word of a context's scratchpad window as the control cores read it; 0 where it does not translate. -/
def State.ctxWord (s : State) (ck va : Nat) : Nat :=
  match s.scrLoc controlUnit ck .read true va with
  | some loc => s.read loc 4
  | none => 0

/-- Does an address lie in an S page of the scratchpad window? -/
def State.inSPage (s : State) (p c va : Nat) : Bool :=
  match s.leafAt controlUnit p c .scr va with
  | .leaf e _ => pteS e && pteR e
  | _ => false

/-- The bytes of a request block: its header, and the entries of a request that has them (R399). -/
def blockBytes (opc n : Nat) : Nat := if 1 ≤ opc && opc ≤ 4 && n ≤ 64 then 16 + 8 * n else 16

/-- The oldest request of a partition; none with an empty mailbox or a block that is misaligned or not in S pages. (DEDUCED, log 46: unsafe.) -/
def State.mailReq (s : State) (p : Nat) : Option MailReq :=
  match (s.part p).mailbox with
  | [] => none
  | m :: _ =>
    let a := m.x.toNat
    let ck := ctxKey p m.ctx
    if a % 32 != 0 || !s.inSPage p m.ctx a || !s.inSPage p m.ctx (a + blockBytes (s.ctxWord ck a % 256) (s.ctxWord ck (a + 8) % 256) - 1) then none
    else some { part := p, ctx := m.ctx, at_ := a, w0 := s.ctxWord ck a, tag := BitVec.ofNat 32 (s.ctxWord ck (a + 4)), w2 := s.ctxWord ck (a + 8), w3 := BitVec.ofNat 32 (s.ctxWord ck (a + 12)) }

/-- Take the oldest entry off the mailbox. -/
def State.mailPop (s : State) (p : Nat) : State := s.updPart p (fun x => { x with mailbox := x.mailbox.drop 1 })

/-- Answer a request: the entry is gone, and a message of KIND 9 goes to the reply port (R399). -/
def State.mailAnswer (s : State) (r : MailReq) (status done : Nat) : State :=
  (s.mailPop r.part).post r.part r.ctx r.port { kind := 9, payload := [r.tag, BitVec.ofNat 32 status, BitVec.ofNat 32 done] }

/-- The PPA of entry `i`, and writing it. -/
def State.mailPpa (s : State) (r : MailReq) (i : Nat) : Nat :=
  let ck := ctxKey r.part r.ctx
  s.ctxWord ck (r.at_ + 16 + 8 * i) + 2 ^ 32 * s.ctxWord ck (r.at_ + 20 + 8 * i)

def State.mailPut (s : State) (r : MailReq) (i x : Nat) : State :=
  (List.range 8).foldl (fun s k => match s.scrLoc controlUnit (ctxKey r.part r.ctx) .read true (r.at_ + 16 + 8 * i + k) with
    | some loc => s.setByte loc (BitVec.ofNat 8 (x / 2 ^ (8 * k)))
    | none => s) s

/-- Are the header's fixed fields right for a request with PPA entries? -/
def MailReq.formOk (r : MailReq) : Bool := r.w0 / 256 % 256 == 0 && 1 ≤ r.n && r.n ≤ 64 && r.w2 / 4096 == 0

/-- Serve the oldest request of a partition if it is of operation `opc`; an entry that names no block is dropped. (DEDUCED, log 46: unsafe.) -/
def State.mailServe (s : State) (p : Nat) (opc : Nat → Bool) (k : MailReq → State) : State :=
  if !(s.part p).live || (s.part p).mailbox.isEmpty then s
  else match s.mailReq p with
    | none => s.mailPop p
    | some r => if opc r.opc && s.canPost p r.ctx r.port then k r else s

/-- ALLOC_SCR (R400). -/
def execAllocScr (part : Nat) (s : State) : Out :=
  .next (s.mailServe part (· == 1) (fun r =>
    let x := s.ctx (ctxKey part r.ctx)
    let pref := if r.w2 / 256 % 16 = 0 then none else some (r.w2 / 256 % 16 - 1)
    let pages := s.freeScr part r.n pref
    if !r.formOk then s.mailAnswer r 2 0
    else if x.squota < s.pagesOf part r.ctx true + r.n then
      (s.record part r.ctx cSCRATCH_QUOTA r.w3 (BitVec.ofNat 32 x.squota) noUnit noUnit).mailAnswer r 1 0
    else if pages.length < r.n then s.mailAnswer r 1 0
    else
      let s := s.takePages part r.ctx pages
      ((pages.zipIdx).foldl (fun s k => s.mailPut r k.2 (65536 * k.1)) s).mailAnswer r 0 r.n))

/-- ALLOC_HBM (R400). -/
def execAllocHbm (part : Nat) (s : State) : Out :=
  .next (s.mailServe part (· == 2) (fun r =>
    let x := s.ctx (ctxKey part r.ctx)
    let pages := s.freeHbm part r.n
    if !r.formOk then s.mailAnswer r 2 0
    else if x.hquota < s.pagesOf part r.ctx false + r.n || pages.length < r.n then s.mailAnswer r 1 0
    else
      let s := s.takePages part r.ctx pages
      ((pages.zipIdx).foldl (fun s k => s.mailPut r k.2 (65536 * k.1)) s).mailAnswer r 0 r.n))

/-- Is the page in a live domain table (R252)? -/
def State.inDomain (s : State) (p page : Nat) : Bool :=
  s.ens.any (fun e => e.2.members.any (fun m => m.2.pages.any (fun d => d.2.live && d.2.loc / 65536 == ppaLoc p (65536 * page) / 65536)))

/-- Does an operation under way touch a page? -/
def State.pageBusy (s : State) (p page : Nat) : Bool :=
  let k := ppaLoc p (65536 * page) / 65536
  s.copies.any (fun e => e.2.live && ((e.2.pages ++ e.2.farPages).any (fun x => x.2 / 65536 == k)
      || e.2.elems.any (fun x => x.inb && !e.2.moved x && (match s.farLoc e.2 x with
        | .ok loc _ => loc / 65536 == k
        | .cause _ => false))))
  || s.colls.any (fun e => e.2.live && (e.2.srcPages ++ e.2.dstPages).any (fun x => x.2 / 65536 == k))
  || s.sends.any (fun e => e.2.live && e.2.ck / 64 == p && (e.2.srcLocs.any (fun a => a / 65536 == k)
      || (rangePages e.2.dst e.2.stage.length).any (fun pg => match s.scrLoc e.2.cluster e.2.ck .write e.2.sup (65536 * pg) with
        | some a => a / 65536 == k
        | none => false)))
  || s.portOps.any (fun e => e.2.live && e.2.lanes.any (fun l => l.loc / 65536 == k))
  || s.jobs.any (fun e => e.2.live && e.2.ranges.any (fun x => x.1 / 65536 == k))

/-- FREE (R400): it answers once no operation under way touches the pages. -/
def execFree (part : Nat) (s : State) : Out :=
  .next (s.mailServe part (· == 3) (fun r =>
    let ppas := (List.range r.n).map (s.mailPpa r)
    let pages := ppas.map (· / 65536)
    if !r.formOk then s.mailAnswer r 2 0
    else if ppas.any (fun a => a % 65536 != 0 || !s.ppaInside part a || s.owner part a != r.ctx || s.inDomain part (a / 65536)) then s.mailAnswer r 3 0
    else if pages.any (s.pageBusy part) then s
    else
      let ck := ctxKey part r.ctx
      let s := [0, 1, 2, 3, 5].foldl (fun s win => s.tlbDrop ck win none) (s.quiesce ck)
      (pages.foldl (fun s k => s.givePage part k none) s).mailAnswer r 0 r.n))

/-- PLACE (R399): the section of each page goes into bits [58:56] of its entry. -/
def execPlace (part : Nat) (s : State) : Out :=
  .next (s.mailServe part (· == 4) (fun r =>
    let ppas := (List.range r.n).map (s.mailPpa r)
    if !r.formOk then s.mailAnswer r 2 0
    else if ppas.any (fun a => let b := a % 2 ^ 56; !s.ppaInside part b || s.owner part b != r.ctx || s.inDomain part (b / 65536)) then s.mailAnswer r 3 0
    else
      ((ppas.zipIdx).foldl (fun s x => s.mailPut r x.2 (putBits x.1 56 3 (s.sectionOf part (x.1 % 2 ^ 56 / 65536)))) s).mailAnswer r 0 r.n))

/-- MBOXEN (R426); a request of no known operation is answered as malformed. (DEDUCED, log 46: unsafe.) -/
def execMboxen (part : Nat) (s : State) : Out :=
  .next (s.mailServe part (fun n => n == 5 || n = 0 || 5 < n) (fun r =>
    if r.opc != 5 || r.w0 / 256 % 256 != 0 || 2 ≤ r.w2 then s.mailAnswer r 2 0
    else (s.updCtx (ctxKey part r.ctx) (fun c => { c with mboxUser := r.w2 == 1 })).mailAnswer r 0 0))

/-! ### Context creation (R77, R393, R394, R414) -/

/-- A code object as the control cores read it from host memory: the manifest of R77, and after it the object's bytes. -/
structure CodeObj where
  ok : Bool
  len : Nat
  digests : List (BitVec 384)
  msg : List Byte
  sigEd : List Byte
  sigMldsa : List Byte
  code : List Byte

/-- A code object from the bytes at a place, read by `rd` (offset, length). (DESIGN CHOICE, log 41: unsafe.) -/
def readObj (rd : Nat → Nat → List Byte) : CodeObj :=
  let w (o : Nat) : Nat := bytesNat (rd o 4)
  let len := w 8
  let np := w 12
  let ok := w 0 == 0x54464E4D && w 4 == 1 && np == (len + 65535) / 65536
  if !ok || 2 ^ 28 < len then { ok := ok, len := len, digests := [], msg := [], sigEd := [], sigMldsa := [], code := [] }
  else
    let n := 16 + 48 * np
    { ok := ok, len := len, digests := (List.range np).map (fun i => BitVec.ofNat 384 (bytesNat (rd (16 + 48 * i) 48))), msg := rd 0 n,
      sigEd := rd n 64, sigMldsa := rd (n + 64) 3309, code := rd (n + 3373) len }

/-- The first enrolled code key of a partition that verifies an object and holds the role (R414). -/
def State.objKey (s : State) (p : Nat) (role : CodeKey → Bool) (o : CodeObj) : Option CodeKey :=
  firstSome (fun i => match s.mc.codeKeys.get (16 * p + i) with
    | some k => if role k && Config.ed25519 k.ed o.msg o.sigEd && Config.mldsa65 k.mldsa o.msg o.sigMldsa then some k else none
    | none => none) (List.range 16)

/-- A field of the creation record of a function. -/
def State.creationWord (s : State) (fn off n : Nat) : Nat :=
  bytesNat ((List.range n).map (fun i => (s.fns.get fn).creation.get (off + i)))

/-- Entries of page tables (R403). -/
def tablePte (ppa : Nat) : Nat := 2 ^ 63 + ppa
def codePte (ppa : Nat) (sup : Bool) : Nat := 2 ^ 63 + 2 ^ 62 + 2 ^ 59 + (if sup then 2 ^ 58 else 0) + ppa
def tableLeaf (ppa : Nat) : Nat := 2 ^ 63 + 2 ^ 62 + 2 ^ 61 + 2 ^ 60 + 2 ^ 58 + ppa

/-- Map the pages `ppas` into the code window from `va`, under the root at `root`, with the tables `tabs` (4 KiB each, one for each
32 MiB). -/
def State.mapCode (s : State) (p root va : Nat) (sup : Bool) (ppas tabs : List Nat) : State :=
  let s := (tabs.zipIdx).foldl (fun s t => s.write (ppaLoc p (root + 8 * (va / 2 ^ 25 + t.2))) 8 (tablePte t.1)) s
  (ppas.zipIdx).foldl (fun s x => s.write (ppaLoc p (tabs.getD (x.2 / 512) 0 + 8 * (x.2 % 512))) 8 (codePte x.1 sup)) s

/-- Split a list after the numbers of elements given. -/
def splitBy {α : Type} : List Nat → List α → List (List α)
  | [], _ => []
  | n :: r, l => l.take n :: splitBy r (l.drop n)

/-- The 4 KiB tables that `n` code pages need. (DESIGN CHOICE, log 41: unsafe.) -/
def tablesFor (n : Nat) : Nat := (n + 511) / 512

/-- A heap at its creation (R318 to R320). -/
def newHeap (h : HeapInit) : Heap :=
  { valid := true, home := h.home, tport := h.tport, thresh := h.thresh, tol := h.tol, cap := if h.cap = 0 then 65536 else h.cap }

/-- Does its home unit take a heap (R318)? Another is not created. (DESIGN CHOICE, log 41: unsafe.) -/
def State.heapFits (s : State) (p : Nat) (h : HeapInit) : Bool :=
  let there := s.heaps.filter (fun e => e.2.valid && e.2.home == h.home)
  (s.part p).hasSec h.home && there.length < 16
  && (there.map (fun e => e.2.cap)).foldl (· + ·) (if h.cap = 0 then 65536 else h.cap) ≤ 1048576

/-- Are a `.heap` directive's operands in range (R320)? -/
def HeapInit.inRange (h : HeapInit) : Bool := h.thresh.toNat ≤ gMax.toNat && h.tol.toNat ≤ gMax.toNat

/-- Does a section of the partition take a port: 1 to 256 slots (R291, R293)? Another is not created. (DESIGN CHOICE, log 41: unsafe.) -/
def State.portFits (s : State) (p : Nat) (x : PortInit) : Bool := 1 ≤ x.depth && x.depth ≤ 256 && (s.part p).hasSec x.home

/-- A port at its creation (R291 to R294): a pinned one is resident. -/
def newPort (x : PortInit) : Port :=
  { valid := true, hostw := x.hostw, sigen := x.sigen, syssc := x.syssc, pin := x.pin, home := x.home, depth := x.depth, resident := x.pin }

/-- Create port `n` of a context. A pinned one needs room among the residents of its join unit, for which others are swapped out; without
it the port is not created (R2, R294). (DESIGN CHOICE, log 41: unsafe.) -/
def State.installPort (s : State) (ck n : Nat) (x : PortInit) : State :=
  if !(n < 65536 && s.portFits (ck / 64) x) then s
  else match (if x.pin then s.makeRoom x.home x.depth [] 2048 else some s) with
    | none => s
    | some s => { s with ports := s.ports.set (portKey ck n) (newPort x) }

/-- A launch descriptor of code object `k` as it is installed: the object's base is added to each role's ENTRY (R394). -/
def basedDesc (k : Nat) (d : List Word) : List Word :=
  (d.zipIdx).map (fun x => if x.2 % 4 == 0 && 8 ≤ x.2 && x.2 < 8 + 4 * dsRoles d then x.1 + BitVec.ofNat 32 (2 ^ 28 * k) else x.1)

/-- Install the tables of a context (R195, R275, R292, R301, R318). (DESIGN CHOICE, log 41: unsafe.) -/
def State.installTables (s : State) (ck : Nat) (x : Install) : State :=
  let s := (x.ports.zipIdx).foldl (fun s p => s.installPort ck p.2 p.1) s
  let s := { s with
    pats := (x.pats.zipIdx).foldl (fun (m : Map Pattern) (p : List Word × Nat) => if p.2 < 4096 then Map.set m (patKey ck p.2) ({ words := p.1.take 8 } : Pattern) else m) s.pats }
  let s := (x.heaps.zipIdx).foldl (fun s h => if h.2 < 16 && s.heapFits (ck / 64) h.1 then { s with heaps := s.heaps.set (heapKey ck h.2) (newHeap h.1) } else s) s
  s.updCtx ck (fun c => { c with
    descs := (x.descs.zipIdx).foldl (fun (m : Map (List Word)) (d : (Nat × List Word) × Nat) => if d.2 < 4096 then Map.set m d.2 (basedDesc d.1.1 (d.1.2.take 32)) else m) c.descs
    tmpls := x.tmpls.foldl (fun (m : Map (List Word)) (t : Nat × List Word) => if t.1 < 4096 then Map.set m t.1 (t.2.take 16) else m) c.tmpls })

/-- What context creation ends in: the CTXID or a refusal's reason. -/
def State.setCtxstat (s : State) (fn : Nat) (stat : Word) (reason : Nat) : State :=
  { s with fns := s.fns.upd fn (fun f => { f with ctxstat := stat, ctxreason := BitVec.ofNat 32 reason }) }

/-- Word 0 of a port's entry (R293). -/
def Port.entry (x : Port) : Nat :=
  (if x.valid then 2 ^ 63 else 0) + (if x.quar then 2 ^ 62 else 0) + (if x.hostw then 2 ^ 61 else 0) + (if x.sigen then 2 ^ 60 else 0)
  + (if x.syssc then 2 ^ 59 else 0) + (if x.pin then 2 ^ 58 else 0) + x.home % 8 * 2 ^ 55 + (x.depth - 1) % 256 * 2 ^ 41
  + x.msgs.length % 512 * 2 ^ 32 + x.lost * 2 ^ 16

/-- Write 4-byte words into a list of pages from offset `off`. -/
def State.putTable (s : State) (p : Nat) (pages : List Nat) (off : Nat) (ws : List Word) : State :=
  (ws.zipIdx).foldl (fun s w =>
    let a := off + 4 * w.2
    s.write (ppaLoc p (65536 * pages.getD (a / 65536) 0 + a % 65536)) 4 w.1.toNat) s

/-- The tables of a context as they lie in its pages, ports first, then patterns, templates and descriptors (R195, R275, R291, R293,
R301). (DESIGN CHOICE, log 95: unsafe.) -/
def State.writeTables (s : State) (ck : Nat) (pages : List Nat) : State :=
  let p := ck / 64
  let c := s.ctx ck
  let s := (s.ports.filter (fun e => e.1 / 65536 == ck)).foldl (fun s e =>
    s.putTable p pages (16 * (e.1 % 65536)) [BitVec.ofNat 32 e.2.entry, BitVec.ofNat 32 (e.2.entry / 2 ^ 32)]) s
  let s := (s.pats.filter (fun e => e.1 / 4096 == ck)).foldl (fun s e => s.putTable p pages (0x100000 + 32 * (e.1 % 4096)) e.2.words) s
  let s := c.tmpls.foldl (fun s e => s.putTable p pages (0x120000 + 64 * e.1) e.2) s
  c.descs.foldl (fun s e => s.putTable p pages (0x160000 + 128 * e.1) e.2) s

/-- Pages of a context's port, pattern, template and launch-descriptor tables (R195, R275, R291, R301): 16, 2, 4 and 8; and one of its two
record rings (R348, R365). (DESIGN CHOICE, log 95: unsafe.) -/
def objPages : Nat := 31

/-- Where the save area of context `c` lies in its scratchpad window (R165). (DESIGN CHOICE, log 95: unsafe.) -/
def areaVa (c : Nat) : Nat := 0xFF000000 + 0x10000 * c

/-- Build a context from its record, its objects and the supervisor's installation (R393, R394). (DESIGN CHOICE, log 41: unsafe; DESIGN
CHOICE, log 95: unsafe.) -/
def State.buildCtx (s : State) (p c : Nat) (objs : List CodeObj) (x : Install) : Option State :=
  let ck := ctxKey p c
  let q := s.part p
  let nps := objs.map (fun o => (o.len + 65535) / 65536)
  let supPages := (q.supLen + 65535) / 65536
  let ntabs := (nps ++ [supPages]).map tablesFor
  let nt := 8 + ntabs.foldl (· + ·) 0
  let tabPages := (nt + 15) / 16
  let code := nps.foldl (· + ·) 0
  let own := tabPages + objPages
  let free := s.freeHbm p (own + code)
  let area := s.freeScr p 1 none
  if free.length < own + code || area.isEmpty then none
  else
    let tp := free.take own
    let cp := (free.drop own).map (· * 65536)
    let s := (s.takePages p 0x40 (tp ++ area)).takePages p c (free.drop own)
    let slot (i : Nat) : Nat := 65536 * tp.getD (i / 16) 0 + 4096 * (i % 16)
    let tabs := splitBy ntabs ((List.range (nt - 8)).map (fun i => slot (8 + i)))
    let parts := splitBy nps cp
    let s := (objs.zipIdx).foldl (fun s o =>
      let pages := parts.getD o.2 []
      let s := (pages.zipIdx).foldl (fun s pg => s.setBytes (ppaLoc p pg.1) ((o.1.code.drop (65536 * pg.2)).take 65536)) s
      s.mapCode p (slot 0) (2 ^ 28 * o.2) false pages (tabs.getD o.2 [])) s
    let s := s.mapCode p (slot 0) 0xF0000000 true ((List.range supPages).map (fun i => q.supPpa + 65536 * i)) (tabs.getD objs.length [])
    let s := s.write (ppaLoc p (slot 1 + 8 * (areaVa c / 2 ^ 25))) 8 (tablePte (slot 7))
    let s := s.write (ppaLoc p (slot 7 + 8 * (areaVa c / 65536 % 512))) 8 (tableLeaf (65536 * area.headD 0))
    let s := s.write (ppaLoc p (slot 2)) 8 (tablePte (slot 5))
    let s := s.write (ppaLoc p (slot 5)) 8 (tablePte (slot 6))
    let s := (tp.zipIdx).foldl (fun s t => s.write (ppaLoc p (slot 6 + 8 * t.2)) 8 (tableLeaf (65536 * t.1))) s
    let dg := (objs.zipIdx).foldl (fun m o => (o.1.digests.zipIdx).foldl (fun m d => Map.set m (4096 * o.2 + d.2) d.1) m) ([] : Map (BitVec 384))
    let dg := (q.supDigests.zipIdx).foldl (fun m d => Map.set m (0xF000 + d.2) d.1) dg
    let ctx : Ctx :=
      { live := true
        roots := [(0, slot 0 + 1), (1, slot 1 + 1), (2, slot 2 + 1), (3, slot 3 + 1), (5, slot 4 + 1)]
        supEntry := BitVec.ofNat 32 (0xF0000000 + s.creationWord p 0 4)
        objLen := (objs.zipIdx).foldl (fun m o => Map.set m o.2 o.1.len) (Map.set [] 15 q.supLen)
        digests := dg
        tabPages := tp ++ area
        squota := s.creationWord p 4 4
        hquota := s.creationWord p 8 4 }
    some (({ s with ctxs := s.ctxs.set ck ctx }.installTables ck x).writeTables ck (tp.drop tabPages))

/-- CTXGO (R393): context creation on the function of a partition. (DESIGN CHOICE, log 1: safe.) -/
def execCtxgo (fn : Nat) (install : Install) (s : State) : Out :=
  let p := fn
  let q := s.part p
  let word (off : Nat) : Nat := s.creationWord fn off 4
  let nobj := word 12
  let objs := (List.range (min nobj 8)).map (fun k =>
    let a := s.creationWord fn (16 + 8 * k) 8
    readObj (fun off n => s.bytes (hostLoc (a + off)) n))
  let no (r : Nat) : State := s.setCtxstat fn 0xFFFFFFFF#32 r
  .next (
    if !s.mc.created || !q.live then s
    else if word 0 % 8 != 0 || nobj = 0 || 8 < nobj || objs.any (fun o => 2 ^ 28 < o.len) then no 1
    else match (List.range 64).find? (fun c => !(s.ctx (ctxKey p c)).live) with
      | none => no 2
      | some c =>
        if objs.any (fun o => !o.ok || (s.objKey p (·.usr) o).isNone) || !install.heaps.all HeapInit.inRange then no 3
        else if (s.freeScr p (word 4) none).length < word 4 || (s.freeHbm p (word 8)).length < word 8 then no 4
        else match s.buildCtx p c objs install with
          | none => no 4
          | some t => t.setCtxstat fn (BitVec.ofNat 32 c) 0)

end Sys2Proof.Machine
end

