-- ==== Sys2Proof/Machine/Module.lean ====
section
/-! DEFINITION. Bring-up, power, the management controller's commands, dumps, life-cycle states, keys and attestation (R378 to R385,
R395, R401, R413 to R417). -/
set_option autoImplicit false

namespace Sys2Proof.Machine

/-! ### Bring-up (R378, R392, R395, R414) -/

/-- What a wipe of all storage leaves (R378 step 3, R379): the module, time, the other machines' memory, and the model's own
counters. -/
def State.wipeAll (s : State) : State :=
  { powered := s.powered, mem := s.mem.keep (fun k _ => 2 ^ 64 ≤ k), links := s.links,
    mc := { s.mc with created := false, spdmAlg := false }, hostAtomics := s.hostAtomics, clock := s.clock, phc := s.phc,
    nextUid := s.nextUid, inputs := s.inputs, senders := s.senders, nextTurn := s.nextTurn, sched := s.sched, placings := s.placings, caps := s.caps, holds := s.holds,
    turns := s.turns }

/-- What a module reset leaves before the wipe of R378: registers and units at their reset values, the bytes of every memory as they were. -/
def State.unwiped (s : State) : State :=
  { s.wipeAll with mem := s.mem, lines := s.lines, poisonLine := s.poisonLine, poisonUnit := s.poisonUnit }

/-- An aligned set of 1, 2, 4 or 8 sections (R395): its first section and their number. -/
def sectionSet (l : List Nat) : Option (Nat × Nat) :=
  let n := l.length
  let b := l.headD 0
  if (n == 1 || n == 2 || n == 4 || n == 8) && b % n == 0 && b + n ≤ 8 && l == (List.range n).map (b + ·) then some (b, n) else none

/-- The partition map as it is configured: each well-formed set that meets no earlier one. -/
def configure : List (List Nat) → Nat → List (Nat × Nat) → List (Nat × Nat × Nat)
  | [], _, _ => []
  | l :: rest, p, used =>
    match sectionSet l with
    | some (b, n) =>
      if p < 8 && used.all (fun u => b + n ≤ u.1 || u.1 + u.2 ≤ b) then (p, b, n) :: configure rest (p + 1) ((b, n) :: used)
      else configure rest (p + 1) used
    | none => configure rest (p + 1) used

/-- Load the supervisor's object of a partition into SUP pages from PPA 0, once a code key with the SUP role has verified it (R392,
R414). (DESIGN CHOICE, log 61: unsafe.) -/
def State.loadSup (s : State) (p : Nat) (bytes : List Byte) : State :=
  let o := readObj (fun off n => (bytes.drop off).take n)
  match (if o.ok then s.objKey p (·.sup) o else none) with
  | none => { s with parts := s.parts.erase p }
  | some k =>
    let s := (s.takePages p 0x40 (List.range ((o.len + 65535) / 65536))).setBytes (ppaLoc p 0) (o.code.take o.len)
    s.updPart p (fun x => { x with supPpa := 0, supLen := o.len, supDigests := o.digests, supDbg := k.dbg })

/-- The bank whose image verifies under the vendor root: A first (R378). -/
def Module.bootBank (m : Module) : Nat :=
  if m.life == .retired then 0
  else if Config.firmwareSigned m.vendorRoot m.bankA then 1
  else if Config.firmwareSigned m.vendorRoot m.bankB then 2 else 0

/-- POWER_GOOD (R378): the steps of bring-up, as far as they go. (DESIGN CHOICE, log 1: safe; DESIGN CHOICE, log 61: unsafe.) -/
def execPowerGood (image : BootInput) (s : State) : Out :=
  let bank := s.mc.bootBank
  let s := s.updMc (fun m => { m with bank := bank, badSince := none, pcieDown := false, partMap := [] })
  let on (s : State) : State := { s with powered := true, links := [] }
  .next (
    if bank = 0 then (on s.unwiped).say (.bringUp 2)
    else if image.wipeError then (on s.wipeAll).say (.bringUp 3)
    else
      let s := on s.wipeAll
      let s := { s with links := image.failedLinks.foldl (fun (m : Map Link) (l : Nat) => if l < linkCount then m.set l { down := true } else m) [] }
      let s := s.updMc (fun m => { m with pcieDown := !image.pcieUp })
      if image.hbmError then s.say (.bringUp 4)
      else
      let sets := configure image.partMap 0 []
      let even := s.mc.capW / max sets.length 1
      let s := s.updMc (fun m => { m with
        partMap := sets.map (fun x => (x.2.1, x.2.2))
        shares := if m.shares.length != sets.length then sets.foldl (fun (t : Map Nat) (x : Nat × Nat × Nat) => t.set x.1 even) [] else m.shares })
      let s := sets.foldl (fun s x =>
        (s.updPart x.1 (fun _ => { live := true, base := x.2.1, nsec := x.2.2 })).loadSup x.1 (image.supObjects.getD x.1 [])) s
      (s.updMc (fun m => { m with created := true })).say (.bringUp 0))

/-! ### Power (R382, R383) -/

/-- The least `w` at which a partition that drew `power` while `now` sixteenths were withheld stays within its share. (DESIGN CHOICE, log 62: unsafe.) -/
def throttleFor (power now share : Nat) : Nat :=
  ((List.range 16).find? (fun w => power * (16 - w) ≤ share * (16 - now))).getD 15

/-- Clocks in a window of 1 µs (R382). -/
def windowClocks : Nat := 1600

/-- POWER_WINDOW (R382): `power` is what the partition drew in the window that ends, in W; a window is measured once. (DESIGN CHOICE, log 62: unsafe.) -/
def execPowerWindow (part power : Nat) (s : State) : Out :=
  .next (
    if !(s.part part).live || s.mc.badSince.isSome || s.clock / windowClocks < (s.part part).window then s
    else s.updPart part (fun x => { x with window := s.clock / windowClocks + 1, withheld := throttleFor power x.withheld (s.mc.shares.get part) }))

/-- Set the throttle of every partition. -/
def State.throttleAll (s : State) (w : Nat) : State :=
  { s with parts := s.parts.mapVals (fun _ x => if x.live then { x with withheld := w } else x) }

/-- INPUT_FAULT (R383). -/
def execInputFault (s : State) : Out :=
  .next (if s.mc.badSince.isSome then s else (s.throttleAll 15).updMc (fun m => { m with badSince := some s.clock }))

/-- INPUT_BACK_IN_RANGE (R383). -/
def execInputBackInRange (s : State) : Out :=
  .next (if s.mc.badSince.isSome then (s.throttleAll 0).updMc (fun m => { m with badSince := none }) else s)

/-- Clocks in one second. -/
def secClocks : Nat := 1600000000

/-- Has the fault persisted for a further 1 s? -/
def State.powerOffDue (s : State) : Bool :=
  match s.mc.badSince with
  | some c => s.powered && c + secClocks ≤ s.clock
  | none => false

/-- POWER_OFF (R383): a record to each context, then no power: nothing is saved, and all work and all storage are lost; what is left of a
context is its record ring, for its reader. -/
def execPowerOff (s : State) : Out :=
  .next (
    if !s.powerOffDue then s
    else
      let s := ((s.ctxs.filter (fun e => e.2.live)).map (·.1)).foldl (fun s k => s.machineCheck k 0 0) s
      { s.wipeAll with powered := false, ctxs := s.ctxs.mapVals (fun _ c => { ring := c.ring, drops := c.drops }) })

/-! ### Commands of the management controller (R380, R382, R384) -/

/-- CAP (R382, R384): one share for each configured partition. (DESIGN CHOICE, log 62: unsafe.) -/
def execCap (watts : Nat) (shares : List Nat) (s : State) : Out :=
  .next (s.command (s.mc.admits && 800 ≤ watts && watts ≤ 2600 && shares.length = s.mc.partMap.length && shares.foldl (· + ·) 0 ≤ watts) (fun s =>
    s.updMc (fun m => { m with capW := watts, shares := (shares.zipIdx).foldl (fun (t : Map Nat) (x : Nat × Nat) => t.set x.2 x.1) [] })))

/-- TIME (R380, R384). -/
def execTime (ptmOnly : Bool) (s : State) : Out :=
  .next (s.command s.mc.admits (fun s => s.updMc (fun m => { m with ptmOnly := ptmOnly, tod := none })))

/-- COUNTERS (R355, R359, R384). -/
def execCounters (part : Nat) (s : State) : Out :=
  .next (s.say (if s.mc.admits then .counters part (s.part part).corrected (s.part part).log else .refused))

/-- FIRMWARE (R384): verified at the next module reset. -/
def execFirmware (bank : Bool) (image : List Byte) (s : State) : Out :=
  .next (s.command s.mc.admits (fun s => s.updMc (fun m => if bank then { m with bankB := image } else { m with bankA := image })))

/-! ### Dumps (R385) -/

/-- DUMP (R384, R385): every gang of the partition begins to stop; what is saved is streamed once all are. -/
def execDump (part : Nat) (opts : DumpOpts) (s : State) : Out :=
  .next (s.command (s.mc.admits && (s.part part).live && (s.part part).dump.isNone) (fun s =>
    let gs := (s.gangs.filter (fun e => e.2.part == part && (e.2.place == .resident || e.2.place == .stopping || e.2.place == .saved))).map (·.1)
    let s := gs.foldl State.stopForSave s
    s.updPart part (fun x => { x with dump := some { gangs := gs, reset := opts.reset, pages := opts.pages, start := s.phc, clock := s.clock } })))

/-- Has every gang of the partition been saved? -/
def State.dumpSaved (s : State) (part : Nat) : Bool :=
  s.gangs.all (fun e => e.2.part != part || (e.2.place != .resident && e.2.place != .stopping))

/-- A gang as the dump lists it: its saved image (R351) and the name of its point (R372). -/
def State.dumpGang (s : State) (g : Nat) : DumpGang :=
  let x := s.gang g
  let lo := gangLoc g 0
  { launch := x.launch, gangId := x.gangId, interval := x.interval, count := x.count, cause := x.saveCause, warps := x.warps.map s.warp,
    barriers := (List.range 32).map (fun b => x.barriers.get b),
    mem := s.mem.filter (fun c => lo ≤ c.1 && c.1 < lo + 2 ^ 22) }

/-- A launch that the queue of its partition holds: with a gang that has not started or has been saved (R277, R281). -/
def State.launchHeld (s : State) (n : Nat) : Bool :=
  let l := s.launch n
  l.live && (l.started < l.gangs || s.gangs.any (fun e => e.2.launch == n && e.2.place == .saved))

/-- The contents of a page of a partition that a dump names; none outside the partition. -/
def State.dumpPage (s : State) (p page : Nat) : Option (Nat × List (Nat × Byte)) :=
  let lo := ppaLoc p (65536 * page)
  if s.ppaInside p (65536 * page) then some (page, s.mem.filter (fun c => lo ≤ c.1 && c.1 < lo + 65536)) else none

/-- A dump ends: what it streamed, then the reset that follows or waits. -/
def State.endDump (s : State) (part : Nat) (d : DumpJob) (complete : Bool) : State :=
  let rings := (s.ctxs.filter (fun e => e.1 / 64 == part && e.2.live)).map (fun e => e.2.ring)
  let queue := (s.launches.filter (fun e => e.2.part == part && s.launchHeld e.1)).map (·.1)
  let s := (s.say (.dump part complete d.start s.phc (d.gangs.map s.dumpGang) rings (s.part part).log queue (d.pages.filterMap (s.dumpPage part)))).updPart part (fun x => { x with dump := none })
  if d.reset then s.resetPart part (d.trigger.getD 3)
  else match d.trigger with
    | some t => s.resetPart part t
    | none => s

/-- DUMP_STREAM_END (R385). -/
def execDumpStreamEnd (part : Nat) (s : State) : Out :=
  .next (match (s.part part).dump with
    | some d => if s.dumpSaved part then s.endDump part d true else s
    | none => s)

/-- May the dump of a partition be truncated? -/
def State.dumpOver (s : State) (part : Nat) : Bool :=
  match (s.part part).dump with
  | some d => d.clock + 10 * secClocks ≤ s.clock
  | none => false

/-- DUMP_TIMEOUT (R385). -/
def execDumpTimeout (part : Nat) (s : State) : Out :=
  .next (match (s.part part).dump with
    | some d => if s.dumpOver part then s.endDump part d false else s
    | none => s)

/-! ### Keys and life-cycle states (R379, R413, R415) -/

/-- SHA-384 of both public keys (R413). -/
def rootOf (ed : BitVec 256) (mldsa : List Byte) : BitVec 384 := Config.sha384 (natBytes 32 ed.toNat ++ mldsa)

/-- Do both signatures of a request verify under the root that it says signed it? (DEDUCED, log 63: safe.) -/
def Module.signed (m : Module) (r : SignedRequest) : Bool :=
  (if r.byVendor then rootOf r.ed r.mldsa == m.vendorRoot else m.operatorRoot == some (rootOf r.ed r.mldsa))
  && Config.ed25519 r.ed r.body r.sigEd && Config.mldsa65 r.mldsa r.body r.sigMldsa

/-- The module after a transition; none where R415 does not list it or it asks for another signature. (DEDUCED, log 63: safe.) -/
def Module.transit (m : Module) (target : LifeCycle) (r : SignedRequest) : Option Module :=
  match m.life, target with
  | .blank, .factory => if r.byVendor then some { m with life := .factory, identity := true } else none
  | .factory, .field => if r.byVendor then some { m with life := .field, operatorRoot := some r.operatorRoot } else none
  | .field, .fieldDebug => if !r.byVendor && r.serial = m.serial then some { m with life := .fieldDebug } else none
  | .fieldDebug, .field => if !r.byVendor && r.serial = m.serial then some { m with life := .field } else none
  | .blank, .retired | .factory, .retired =>
    if r.byVendor then some { m with life := .retired, bank := 0, identity := false, operatorRoot := none, codeKeys := [], vendorRoot := 0#384 } else none
  | .field, .retired | .fieldDebug, .retired => some { m with life := .retired, bank := 0, identity := false, operatorRoot := none, codeKeys := [] }
  | _, _ => none

/-- LIFECYCLE_TRANSITION (R379, R415): all storage is wiped, and with the contexts every debug right ends. (DEDUCED, log 63: safe.) -/
def execLifecycleTransition (target : LifeCycle) (request : SignedRequest) (s : State) : Out :=
  .next (match (if s.mc.signed request then s.mc.transit target request else none) with
    | none => s.say .refused
    | some m => (({ s with mc := m }.wipeAll).say .accepted))

/-- CODE_KEY_ENROL (R413): signed by the operator root. -/
def execCodeKeyEnrol (part index : Nat) (key : CodeKey) (request : SignedRequest) (s : State) : Out :=
  .next (s.command (part < 8 && index < 16 && !request.byVendor && s.mc.signed request) (fun s =>
    s.updMc (fun m => { m with codeKeys := m.codeKeys.set (16 * part + index) (some key) })))

/-! ### Attestation (R417) -/

/-- An SPDM response, or ERROR. (PRESUMED, log 64: unsafe.) -/
def State.spdm (s : State) (ok : Bool) (code : Nat) (body : List Byte) : State :=
  if ok then s.say (.spdm code body) else s.say (.spdm 0x7F [])

/-- A digest's bytes. -/
def digestBytes (d : BitVec 384) : List Byte := natBytes 48 d.toNat

/-- A code key's bytes. -/
def keyBytes (k : Nat × Option CodeKey) : List Byte :=
  natBytes 2 k.1 ++ (match k.2 with
    | some x => natBytes 32 x.ed.toNat ++ x.mldsa ++ [BitVec.ofNat 8 (x.sup.toNat + 2 * x.usr.toNat + 4 * x.dbg.toNat)]
    | none => [])

/-- The measurement blocks. (PRESUMED, log 64: unsafe.) -/
def State.measurement (s : State) (i : Nat) : Option (BitVec 384) :=
  let m := s.mc
  let image := if m.bank = 1 then m.bankA else if m.bank = 2 then m.bankB else []
  if i = 1 then some Config.bootRomDigest
  else if i = 2 then some (Config.sha384 (BitVec.ofNat 8 m.bank :: image))
  else if i = 3 then some (Config.sha384 [BitVec.ofNat 8 (lifeCode m.life)])
  else if i = 4 then some (Config.sha384 (m.codeKeys.flatMap keyBytes))
  else if i = 5 then some (Config.sha384 (m.partMap.flatMap (fun x => [BitVec.ofNat 8 x.1, BitVec.ofNat 8 x.2])))
  else if 16 ≤ i && i < 24 && (s.part (i - 16)).live then some (Config.sha384 (s.bytes (ppaLoc (i - 16) (s.part (i - 16)).supPpa) (s.part (i - 16)).supLen))
  else none

/-- ATTEST (R384, R417): an attestation session opens. -/
def execAttest (s : State) : Out := .next (s.command s.mc.admits (fun s => s.updMc (fun m => { m with spdmAlg := false })))

/-- GET_VERSION: version 1.3. (PRESUMED, log 64: unsafe.) -/
def execGetVersion (s : State) : Out := .next (s.spdm true 0x04 [0x00#8, 0x13#8])

/-- GET_CAPABILITIES: certificates, challenge and signed measurements. (PRESUMED, log 64: unsafe.) -/
def execGetCapabilities (s : State) : Out := .next (s.spdm true 0x61 (natBytes 4 0x16))

/-- NEGOTIATE_ALGORITHMS: ECDSA P-384 with SHA-384, and nothing else. (PRESUMED, log 64: unsafe.) -/
def execNegotiateAlgorithms (supported : Bool) (s : State) : Out :=
  .next ((s.updMc (fun m => { m with spdmAlg := supported })).spdm supported 0x63 (natBytes 4 0x80 ++ natBytes 4 0x02))

/-- May the device answer with its identity: the algorithms are agreed, and the key exists? -/
def Module.canSign (m : Module) : Bool := m.spdmAlg && m.identity

/-- GET_DIGESTS. -/
def execGetDigests (s : State) : Out := .next (s.spdm s.mc.canSign 0x01 (digestBytes (Config.sha384 (Config.certificate s.mc.serial))))

/-- GET_CERTIFICATE. -/
def execGetCertificate (s : State) : Out := .next (s.spdm s.mc.canSign 0x02 (Config.certificate s.mc.serial))

/-- CHALLENGE: the digest of the certificate chain, signed with the nonce by the device identity. (PRESUMED, log 64: unsafe.) -/
def execChallenge (nonce : BitVec 256) (s : State) : Out :=
  let body := digestBytes (Config.sha384 (Config.certificate s.mc.serial)) ++ natBytes 32 nonce.toNat
  .next (s.spdm s.mc.canSign 0x03 (body ++ Config.identitySign s.mc.serial body))

/-- GET_MEASUREMENTS: one block, signed. (PRESUMED, log 64: unsafe.) -/
def execGetMeasurements (index : Nat) (s : State) : Out :=
  .next (match s.measurement index with
    | some d =>
      let body := BitVec.ofNat 8 index :: digestBytes d
      s.spdm s.mc.canSign 0x60 (body ++ Config.identitySign s.mc.serial body)
    | none => s.spdm false 0 [])

end Sys2Proof.Machine
end

