-- ==== Sys2Proof/Machine/Agenda.lean ====
section
/-! DEFINITION. What may happen next: the engine events that are due, the clock, and the word that the host places. -/
set_option autoImplicit false

namespace Sys2Proof.Machine

/-! ### Engine events -/

/-- The numbers of the entries of a table that satisfy `p`. -/
def Map.which {α : Type} (m : Map α) (p : Nat → α → Bool) : List Nat := (m.filter (fun e => p e.1 e.2)).map (·.1)

/-- Events of warps that are due: replies, the ends of waits. -/
def State.warpEvents (s : State) : List Instr :=
  (s.warps.filter (fun e => e.2.live)).flatMap (fun e =>
    let u := e.1
    let w := e.2
    ((w.replies.filter (fun r => r.2.held && r.2.have_ && !s.frozen w.gang)).map (fun r => .loadReply u r.1 r.2.lanes))
    ++ ((w.replies.filter (fun r => s.hostOverdue u r.1)).map (fun r => .hostCompletionTimeout u r.1))
    ++ (if s.waitOver u then [.parkWake u] else [])
    ++ (if w.wait == .fence && w.step.closed && s.fencesOk u then [.fenceSatisfied u] else [])
    ++ (match w.wait with
      | .sleep sec ns => if s.deadlinePassed sec ns && s.waitsEnd w.gang then [.sleepDeadline u] else []
      | .code ck pg => if (s.ctx ck).codePages.get pg == .unverified then [.codePageVerified ck pg] else []
      | _ => []))

/-- Events of gangs that are due. -/
def State.gangEvents (s : State) : List Instr :=
  ((Map.which s.gangs (fun g _ => s.wdogDue g)).map .gangWatchdogExpiry)
  ++ ((Map.which s.gangs (fun g _ => s.drainOver g)).map .saveDrainTimeout)

/-- The reductions that can merge with the first of a line: all that wait there (R210). -/
def State.merges (s : State) : List (List Nat) :=
  (Map.which s.portOps (fun n x => x.reply.isNone && s.portFirst n)).filterMap (fun n =>
    let x := s.portOps.get n
    let ops := Map.which s.portOps (fun _ y => y.live && y.reply.isNone && y.aop == x.aop && y.space == x.space && y.keys == x.keys)
    if 1 < ops.length && s.mergeable ops then some ops else none)

/-- Events of the copy engines, the memory ports, the matrix units and the heap units that are due. -/
def State.unitEvents (s : State) : List Instr :=
  (s.copies.flatMap (fun e =>
    if s.frozen e.2.gang then []
    else ((e.2.work.filter (s.canLand e.1)).map (.copyLineLand e.1))
      ++ (if e.2.work.all e.2.landed.contains && s.copyFirst e.1 && s.canFinishCopy e.2 then [.copyComplete e.1] else [])
      ++ (if s.copyFirst e.1 && (s.copyFailure e.2).isSome && s.canFinishCopy e.2 then [.copyFail e.1 false] else [])))
  ++ (s.colls.flatMap (fun e =>
    if !e.2.live || !s.collReady e.2 then []
    else if e.2.aborted then [.collPeerAbort e.1]
    else if s.collGathered e.1 [] then [.collComplete e.1 []] else []))
  ++ ((Map.which s.sends (fun _ j => j.live && !s.frozen j.gang)).map .sendmemComplete)
  ++ ((Map.which s.portOps (fun n x => x.reply.isSome && s.portFirst n)).map .memportAtomic)
  ++ ((Map.which s.portOps (fun n x => x.reply.isNone && s.portFirst n)).map (fun n => .memportReduction [n]))
  ++ (s.merges.map .memportReduction)
  ++ ((Map.which s.quads (fun _ q => !q.queue.isEmpty)).map .matrixQueueExecute)
  ++ ((Map.which s.heapQ (fun sec _ => s.heapDue sec)).map .heapUnitApply)

/-- The postings of timers that are due: an entry posts at once, or its posting is held (R314, R381). -/
def State.timerEvents (s : State) : List Instr :=
  s.parts.flatMap (fun p => (Map.which p.2.timers (fun _ t => s.timerDue t && (!t.due || s.canPost p.1 t.ctx t.port))).map (.timerPost p.1))

/-- Events of ports, heaps and timers that are due. -/
def State.joinEvents (s : State) : List Instr :=
  ((Map.which s.ports (fun _ x => x.valid && !x.resident && !(x.buffered.isEmpty && x.parked.isEmpty))).map (fun k => .portSwapIn (k / 65536) (k % 65536)))
  ++ ((Map.which s.ports (fun k _ => (s.senderDue k).isSome)).map (fun k => .portSenderRetry (k / 65536) (k % 65536)))
  ++ ((Map.which s.heaps (fun k _ => (s.popperDue k).isSome)).map (fun k => .heapPopperWake (k / 16) (k % 16)))
  ++ s.timerEvents

/-- The mailbox request of a partition that the control cores serve next (R265, R399). -/
def State.mailEvents (s : State) (p : Nat) : List Instr :=
  if (s.part p).mailbox.isEmpty then []
  else match s.mailReq p with
    | none => [.mboxen p]
    | some r =>
      if r.opc = 1 then [.allocScr p] else if r.opc = 2 then [.allocHbm p] else if r.opc = 3 then [.free p]
      else if r.opc = 4 then [.place p] else [.mboxen p]

/-- Events of partitions and clusters that are due. -/
def State.partEvents (s : State) : List Instr :=
  ((s.parts.filter (fun e => e.2.live)).flatMap (fun e =>
    (if e.2.dump.isNone && (s.admission e.1).isSome then [.gangAdmission e.1] else [])
    ++ (if partClocks ≤ e.2.pwdog then [.partitionWatchdogExpiry e.1] else [])
    ++ (if s.dumpOver e.1 then [.dumpTimeout e.1] else [])
    ++ s.mailEvents e.1))
  ++ (((s.warps.filter (fun e => e.2.live)).map (fun e => quadCluster e.2.quad)).eraseDups.filter (fun c => (s.oldestRejected c).isSome)).map .rejectRetry
  ++ (((s.warps.filter (fun e => e.2.live)).map (fun e => e.2.quad)).eraseDups.filter (fun q => (s.guardPick q).isSome)).map .issueAgeGuard
  ++ (if s.powerOffDue then [.powerOff] else [])

/-- The engine events that may happen now. (DESIGN CHOICE, log 5: safe.) -/
def State.engineEvents (s : State) : List Instr := s.warpEvents ++ s.gangEvents ++ s.unitEvents ++ s.joinEvents ++ s.partEvents

/-! ### The clock -/

/-- Is this clock withheld from a quadrant: w of every 16, spread evenly (R382)? -/
def State.throttled (s : State) (q : Nat) : Bool :=
  let w := match s.parts.find? (fun e => e.2.live && e.2.hasSec (quadSection q)) with
    | some e => e.2.withheld
    | none => 0
  let c := s.clock % 16
  c * w / 16 < (c + 1) * w / 16

/-- One clock of a gang: its watchdog counts (R289), and the drain of its save starts as its last warp has stopped (R352). -/
def State.tickGang (s : State) (g : Nat) : State :=
  let x := s.gang g
  let s := if x.place == .stopping && !s.atBoundary g then s.updGang g (fun x => { x with stopClock := s.clock }) else s
  if s.wdogCounts g then s.updGang g (fun x => { x with wdog := x.wdog + 1 }) else s

/-- One clock passes (R250, R283, R284, R287, R289, R290, R382). (DESIGN CHOICE, log 8: unsafe.) -/
def State.tick (s : State) : State :=
  let waits := (s.warps.keys).filter (fun u => (s.warp u).live && !(s.warp u).step.started && s.canIssue u)
  let s := (s.warps.keys).foldl (fun s u =>
    let w := s.warp u
    if !w.live || s.throttled w.quad then s
    else if waits.contains u then s.updWarp u (fun w => { w with waited := w.waited + 1 })
    else s.updWarp u (fun w => { w with waited := 0, urgent := w.urgent && ((s.gang w.gang).reserved && w.sp.steps == 0) })) s
  let s := (s.quads.keys).foldl State.tickQuad s
  let s := { s with clock := s.clock + 1, drawn := 0 }.phcTick
  let s := (s.gangs.keys).foldl State.tickGang s
  { s with parts := s.parts.mapVals (fun n p =>
      if p.live then { p with pwdog := p.pwdog + 1, fullAt := if 256 ≤ s.queueLen n then s.phc else p.fullAt } else p) }

/-! ### Host stores (R248, R249) -/

/-- May a posted host store reach the host before the others: no earlier one writes a byte of it, or precedes it on the ordered
stream of its function? -/
def State.hostFirst (s : State) (n : Nat) : Bool :=
  let x := s.hostStores.get n
  x.live && s.hostStores.all (fun e => !(e.1 < n && e.2.before x))

/-- A posted host store lands in host memory. -/
def State.hostDeliver (s : State) (n : Nat) : State := if s.hostFirst n then s.hostLand n else s

/-! ### Evictions (R230, R405) -/

/-- A translation buffer drops an entry. (DESIGN CHOICE, log 43: unsafe.) -/
def State.evictTlb (s : State) (k : Nat) : State := { s with tlb := s.tlb.erase k }
def State.evictWalk (s : State) (k : Nat) : State := { s with walks := s.walks.erase k }

/-- An L1 instruction cache drops a line. -/
def State.evictCode (s : State) (c k : Nat) : State := s.updCluster c (fun x => { x with icode := x.icode.erase k })

/-- One entry of a list, by a number that varies. -/
def pickOne {α : Type} (l : List α) (n : Nat) : List α := (l[n % max l.length 1]?).toList

/-- Evictions that are offered: one of each kind. (DESIGN CHOICE, log 43: unsafe.) -/
def State.evictions (s : State) : List Turn :=
  ((pickOne s.tlb s.turns).map (fun e => .evictTlb e.1)) ++ ((pickOne s.walks s.turns).map (fun e => .evictWalk e.1))
  ++ ((pickOne (s.clusters.filter (fun c => !c.2.l1.isEmpty)) s.turns).flatMap (fun c => (pickOne c.2.l1 s.turns).map (fun e => .evictLine c.1 e.1)))
  ++ ((pickOne (s.clusters.filter (fun c => !c.2.icode.isEmpty)) s.turns).flatMap (fun c => (pickOne c.2.icode s.turns).map (fun e => .evictCode c.1 e.1)))

/-! ### Accesses one by one (R4, R198, R207, R210, R219, R228) -/

/-- The turns of held stores: one performs whole, one of its accesses does, a cluster sees it. -/
def State.storeTurns (s : State) : List Turn :=
  let cs := ((s.warps.filter (fun e => e.2.live)).map (fun e => quadCluster e.2.quad)).eraseDups
  s.heldStores.flatMap (fun e =>
    (if s.heldFirst e.1 then [.storePerform e.1] else [])
    ++ (((List.range e.2.units.length).filter (s.unitFirst e.1)).map (.storeUnit e.1))
    ++ (((List.range e.2.pres.length).filter (s.lineFirst e.1)).map (.storeLine e.1))
    ++ ((cs.filter (s.canShow e.1)).map (.storeShow e.1)))

/-- The reads that may be taken anew: of pending loads, of queued matrix operations, of SENDMEMs. -/
def State.readTurns (s : State) : List Turn :=
  ((s.warps.filter (fun e => e.2.live && !s.frozen e.2.gang)).flatMap (fun e =>
    e.2.replies.flatMap (fun r => (List.range r.2.late.length).map (.loadLate e.1 r.1))))
  ++ (s.quads.flatMap (fun e => (e.2.queue.zipIdx).flatMap (fun o => match o.1.src with
    | some x => (List.range x.late.length).map (.matUnit e.1 o.2)
    | none => [])))
  ++ (s.sends.flatMap (fun e => if e.2.live && !s.frozen e.2.gang then (List.range (e.2.stage.length / 16)).map (.sendUnit e.1) else []))

/-- The units that copies and collectives may move apart. -/
def State.moveTurns (s : State) : List Turn :=
  (s.copies.flatMap (fun e =>
    ((((e.2.elems.filter (fun x => x.inb && !e.2.moved x)).map e.2.unitOf).eraseDups).filter (s.canMoveUnit e.1)).map (.copyUnit e.1)))
  ++ (s.colls.flatMap (fun e => (e.2.left.filter (s.canWriteUnit e.1)).map (.collUnit e.1)))

/-- The elements of a list whose bit of a number is set. -/
def pickSub {α : Type} (l : List α) (n : Nat) : List α := (l.zipIdx.filter (fun x => n / 2 ^ x.2 % 2 == 1)).map (·.1)

/-- The groups of reductions' terms that are offered: each term alone, all at one location, and some of those. -/
def State.termTurns (s : State) : List Turn :=
  let ids := Map.which s.portOps (fun _ x => x.live && x.reply.isNone)
  let locs := (ids.flatMap (fun i => (s.portOps.get i).lanes.map (·.loc))).eraseDups
  (locs.flatMap (fun loc =>
    let ts := s.termsAt ids loc
    (ts.map (fun t => [t]) ++ [ts, pickSub ts s.turns]).filter s.groupOk)).map .termGroup

/-- The lanes and terms that may perform apart. -/
def State.portTurns (s : State) : List Turn := ((Map.which s.portOps (fun n _ => s.laneFirst n)).map .atomicLane) ++ s.termTurns

/-! ### The next turn -/

/-- The quadrants that can issue in this clock (R283, R382). -/
def State.issueQuads (s : State) : List Nat :=
  ((s.warps.filter (fun e => e.2.live)).map (fun e => e.2.quad)).eraseDups.filter (fun q => !(s.quad q).issued && !s.throttled q && (s.pickWarp q).isSome)

/-- The turns that stand for events whose rows lie past what the model can build as data in a run. (DEDUCED, log 50: unsafe.) -/
def State.lateTurns (s : State) : List Turn :=
  ((Map.which s.acks (fun _ x => x.live)).map .acked)
  ++ ((Map.which s.jobs (fun n j => j.kind == .keyway && s.jobReady n)).map .kwDone)
  ++ ((Map.which s.jobs (fun n j => j.kind == .wipe && s.jobReady n)).map .wipeDone)
  ++ ((Map.which s.jobs (fun n j => j.kind == .tlbinv && s.jobReady n && s.allEnded j.waits)).map .tlbDone)
  ++ ((Map.which s.gangs (fun g _ => s.checkpointDue g && !s.midStep g)).map .checkpoint)
  ++ ((Map.which s.gangs (fun g _ => s.rollbackDue g)).map .rollback)
  ++ ((Map.which s.gangs (fun g _ => s.saveDue g)).map .save)
  ++ ((Map.which s.parts (fun p x => x.dump.isSome && s.dumpSaved p)).map .streamEnd)
  ++ ((Map.which s.gangs (fun g _ => s.rerunDue g)).map .rerun)
  ++ ((Map.which s.ctxs (fun _ c => c.unreloaded)).map .integrityKill)
  ++ ((Map.which s.unitQ (fun _ n => n != 0)).map .unitTake)
  ++ (if s.outbox.any s.repostable then [.repost] else [])
  ++ ((Map.which s.links (fun _ l => l.fails != 0 && !l.retraining)).map .flitOk)
  ++ (if s.pulseDue then [.pulse] else [])

/-- Where an input comes from: the host through function `n` (R242), else the rest of the outside. -/
def inputSource : Instr → Nat
  | .hostPortWrite fn _ _ | .hostApertureWrite fn _ _ | .hostApertureRead fn _ _ | .hostAtomicop fn _ | .ctxgo fn _ => fn
  | .registerWrite (.pwstat fn) _ | .registerWrite (.apstat fn) _ | .registerWrite (.creation fn _) _ | .registerWrite (.aperture fn _) _
  | .registerWrite (.completionTimeout fn) _ | .functionLevelReset fn => fn
  | _ => 8

/-- Does the host send it over the PCIe link? -/
def hostSent : Instr → Bool
  | .driverKillRequest _ | .ptmResponse _ => true
  | i => inputSource i < 8

/-- Does it reach the package: what the host sends does not while the PCIe link is down (R378)? -/
def State.reaches (s : State) (i : Instr) : Bool := !(s.mc.pcieDown && hostSent i)

/-- A command of the management controller (R384). -/
def mcCommand : Instr → Bool
  | .reset _ | .dump _ _ | .cap _ _ | .time _ | .counters _ | .firmware _ _ | .attest => true
  | _ => false

/-- What the module does while the package is without power: its input, and the commands of the management controller (R383, R384). -/
def worksOff : Instr → Bool
  | .powerGood _ | .inputFault | .inputBackInRange => true
  | i => mcCommand i

/-- Is something due in this clock and at this reading of the PHC: the output pulse, or the posting of a timer (R380, R381)? -/
def State.timeHeld (s : State) : Bool := s.pulseDue || !s.timerEvents.isEmpty

/-- May a queued input act now? A port-window write waits for credits (R295); the PHC is not set while something is due at its reading. -/
def State.inputReady (s : State) : Instr → Bool
  | .hostPortWrite fn off _ => s.portCredit fn off
  | .ptmResponse _ | .ppsInput _ => !s.timeHeld
  | _ => true

/-- The first input of each source, where it can act (R7, R245). -/
def State.nextInputs (s : State) : List Instr :=
  ((List.range 9).filterMap (fun k => s.inputs.find? (fun i => min (inputSource i) 8 == k))).filter s.inputReady

/-- The fixed number of the engine that takes a turn (R237): the copy engines by section and channel, the heap units, then the quadrants with
their matrix units, then everything else. (DESIGN CHOICE, log 82: unsafe.) -/
def State.engineOf (s : State) : Turn → Nat
  | .event (.copyComplete n) | .event (.copyFail n _) => 16 * (s.copies.get n).sec + (s.copies.get n).chan
  | .event (.collComplete n _) | .event (.collPeerAbort n) => 16 * (s.colls.get n).sec + (s.colls.get n).chan
  | .event (.heapUnitApply sec) => 128 + sec
  | .event (.matrixQueueExecute q) | .issue q => 1024 + q
  | _ => 2 ^ 20

/-- May a turn come in this clock: no engine of a higher number has drawn in it (R237)? -/
def State.inOrder (s : State) (t : Turn) : Bool := s.drawn ≤ s.engineOf t

/-- Has a warp of the quadrant waited for a slot as long as R284 lets it (R285)? -/
def State.pressed (s : State) (q : Nat) : Bool := (s.warpsOn q).any (fun u => 2048 ≤ (s.warp u).waited)

/-- The turns that may come next. A complete pattern fires before any other event (R304). (DESIGN CHOICE, log 5: safe; DESIGN CHOICE, log 7: unsafe; DEDUCED, log 36: safe.) -/
def State.turnsDue (s : State) : List Turn :=
  let fires := (List.range 8).filter (fun sec => !(s.completeIn sec).isEmpty)
  if !fires.isEmpty then fires.map (fun sec => .event (.patternFire sec))
  else
    let quads := s.issueQuads.filter (fun q => s.inOrder (.issue q))
    ((s.nextInputs ++ s.engineEvents).map Turn.event |>.filter s.inOrder)
    ++ s.lateTurns
    ++ (Map.which s.hostStores (fun n _ => s.hostFirst n)).map .hostDeliver
    ++ s.storeTurns ++ s.readTurns ++ s.moveTurns ++ s.portTurns
    ++ quads.map .issue
    ++ s.evictions
    ++ (if quads.any s.pressed || s.timeHeld then [] else [.tick])

/-- Choose the turn: the one that was asked for, else by the schedule. (DESIGN CHOICE, log 7: unsafe.) -/
def State.chooseTurn (s : State) : Turn × State :=
  match s.nextTurn with
  | some t => (t, { s with nextTurn := none, engine := s.engineOf t })
  | none =>
    let due := s.turnsDue
    let t := due.getD (s.sched.headD s.turns % due.length) .tick
    (t, { s with sched := s.sched.drop 1, turns := s.turns + 1, engine := s.engineOf t })

/-- The port of a command that is taken. -/
def State.nextSender (s : State) (i : Instr) : State :=
  match mcCommand i, s.senders with
  | true, v :: rest => { s with senders := rest, mc := { s.mc with via := v } }
  | _, _ => s

/-- The event taken leaves the queue of inputs when it is the first of its source. (DESIGN CHOICE, log 5: safe.) -/
def State.takeInput (s : State) (i : Instr) : State :=
  let s := s.nextSender i
  if s.inputs.find? (fun j => min (inputSource j) 8 == min (inputSource i) 8) = some i then { s with inputs := s.inputs.erase i } else s

/-! ### Placing one word (the host's question) -/

/-- Where the placed word lies: partition 0, HBM page 1, mapped at code address 0. -/
def fetchPpa : Nat := 0x10000

/-- The word that closes a step which the placed word leaves open: NOP with E = 1 (R53). -/
def closingNop : DWord := 0x0020000000000000#64

/-- One partition, one context, one launch, one gang of one warp on quadrant 0, with code page 0 mapped, verified and holding
`word`. What stood at these numbers is replaced; everything else stays. (DESIGN CHOICE, log 1: safe.) -/
def State.placeWord (s : State) (word : DWord) : State :=
  let w : Warp := { live := true, quad := 0, present := Mask.full, vbudget := 256, sbudget := 512, sp := { vpc := List.replicate 32 0#32 } }
  let g : Gang := { place := .resident, warps := [0], gangSize := 0x10000 }
  let l : Launch := { live := true, gangs := 1, started := 1 }
  let s : State :=
    { s with
      powered := true
      warps := s.warps.set 0 w
      gangs := s.gangs.set 0 g
      launches := s.launches.set 0 l
      ctxs := s.ctxs.set 0 { live := true, roots := [(0, 1)], codePages := [(0, .verified)] }
      parts := s.parts.set 0 { live := true, base := 0, nsec := 1 }
      tlb := s.tlb.keep (fun k _ => 2 ^ 39 ≤ k % 2 ^ 48)
      walks := s.walks.keep (fun k _ => 2 ^ 49 ≤ k % 2 ^ 58)
      owners := (s.owners.set 0 (0x40 + 1)).set 1 (0 + 1) }
  let s := s.write (ppaLoc 0 0) 8 (2 ^ 63 + 0x1000)
  let s := s.write (ppaLoc 0 0x1000) 8 (2 ^ 63 + 2 ^ 62 + 2 ^ 61 + 2 ^ 59 + fetchPpa)
  let s := s.write (ppaLoc 0 fetchPpa) 8 word.toNat
  let s := s.write (ppaLoc 0 (fetchPpa + 8)) 8 closingNop.toNat
  { s with nextTurn := some (.issue 0), nextUid := max s.nextUid 1 }

end Sys2Proof.Machine
end

