-- ==== Sys2Proof/Machine/Signal.lean ====
section
/-! DEFINITION. The complex and signal instructions (R136 to R140). -/
set_option autoImplicit false

namespace Sys2Proof.Machine

/-- A complex value not yet rounded: the exact terms of each part, and the flags met in forming them. -/
structure CSum where
  re : List XReal := []
  im : List XReal := []
  fl : Nat := 0
  deriving DecidableEq, Repr

/-- The format of one part (R91). -/
def partFmt (t : Ty) : Fmt := Fmt.ofTy t

/-- A complex operand (R91); a signalling NaN in a part raises INVALID (R90). -/
def CSum.of (t : Ty) (x : Nat) : CSum :=
  let w := t.bits / 2
  let r := decodeVal (partFmt t) (x % 2 ^ w)
  let i := decodeVal (partFmt t) (x / 2 ^ w % 2 ^ w)
  { re := [r], im := [i], fl := sigFlag r ||| sigFlag i }

def CSum.add (a b : CSum) : CSum := { re := a.re ++ b.re, im := a.im ++ b.im, fl := a.fl ||| b.fl }
def CSum.neg (a : CSum) : CSum := { a with re := a.re.map XReal.neg, im := a.im.map XReal.neg }

/-- The exact product of two operands (R137). -/
def CSum.mul (a b : CSum) : CSum :=
  let p (x y : List XReal) : XReal × Nat := xmul (x.headD (.nan false)) (y.headD (.nan false))
  let rr := p a.re b.re
  let ii := p a.im b.im
  let ri := p a.re b.im
  let ir := p a.im b.re
  { re := [rr.1, ii.1.neg], im := [ri.1, ir.1], fl := a.fl ||| b.fl ||| rr.2 ||| ii.2 ||| ri.2 ||| ir.2 }

/-- Multiplication by -i, or by i when `inv` (R139). -/
def CSum.turn (inv : Bool) (a : CSum) : CSum :=
  if inv then { a with re := a.im.map XReal.neg, im := a.re } else { a with re := a.im, im := a.re.map XReal.neg }

/-- Round each part once (R137). (DEDUCED, log 15: unsafe.) -/
def CSum.round (t : Ty) (m : Rnd) (a : CSum) : Flagged :=
  let r := xsum m a.re
  let i := xsum m a.im
  let cr := Machine.round (partFmt t) m false r.1
  let ci := Machine.round (partFmt t) m false i.1
  (cr.1 + ci.1 * 2 ^ (t.bits / 2), a.fl ||| r.2 ||| i.2 ||| cr.2 ||| ci.2)

/-- A complex source in a lane. -/
def State.csrc (s : State) (t : Ty) (x : Src) (l : Nat) : CSum := CSum.of t (s.src t x l)

/-- Consecutive complex values of a vector register group (R136). -/
def State.cgroup (s : State) (t : Ty) (x : Src) (j l : Nat) : CSum :=
  match x with
  | .vec n => s.csrc t (.vec (n + BitVec.ofNat 8 (if t.is64 then 2 * j else j))) l
  | y => s.csrc t y l

/-- VCMUL (R137). -/
def execVcmul (o : NOp) (s : State) : Out :=
  .next (s.vop (.vcmul o) o o.ty.is64 (fun l => ((s.csrc o.ty o.s0 l).mul (s.csrc o.ty o.s1 l)).round o.ty o.rnd))

/-- VCFMA (R137). -/
def execVcfma (o : NOp) (s : State) : Out :=
  .next (s.vop (.vcfma o) o o.ty.is64 (fun l =>
    (((s.csrc o.ty o.s0 l).mul (s.csrc o.ty o.s1 l)).add (s.csrc o.ty o.s2 l)).round o.ty o.rnd))

/-- VCCONJ (R137): the sign bit of the imaginary part. -/
def execVcconj (o : NOp) (s : State) : Out :=
  .next (s.vop (.vcconj o) o o.ty.is64 (fun l => ((s.src o.ty o.s0 l + 2 ^ (o.ty.bits - 1)) % 2 ^ o.ty.bits, 0)))

/-- VCABS2 (R137): the imaginary part is +0.0. -/
def execVcabs2 (o : NOp) (s : State) : Out :=
  .next (s.vop (.vcabs2 o) o o.ty.is64 (fun l =>
    let a := s.csrc o.ty o.s0 l
    let r := a.re.headD (.nan false)
    let i := a.im.headD (.nan false)
    ({ re := [(xmul r r).1, (xmul i i).1], im := [.fin false 0 1], fl := a.fl ||| (xmul r r).2 ||| (xmul i i).2 } : CSum).round o.ty o.rnd))

/-- VBFLY2 (R138). -/
def execVbfly2 (o : NOp) (s : State) : Out :=
  let m := s.me.execSet o.g
  .next (s.checked (.vbfly2 o) m (fun s =>
    let a (l : Nat) : CSum := s.csrc o.ty o.s0 l
    let t (l : Nat) : CSum := (s.csrc o.ty o.s2 l).mul (s.csrc o.ty o.s1 l)
    s.putVs o.e o.v o.d.toNat m o.ty.is64
      [fun l => ((a l).add (t l)).round o.ty o.rnd, fun l => ((a l).add (t l).neg).round o.ty o.rnd]))

/-- VBFLY4 (R139). -/
def execVbfly4 (o : NOp) (s : State) : Out :=
  let m := s.me.execSet o.g
  .next (s.checked (.vbfly4 o) m (fun s =>
    let inv := o.s2.ctlVal == 1
    let x (j l : Nat) : CSum := s.cgroup o.ty o.s0 j l
    let t (j l : Nat) : CSum := if j = 0 then x 0 l else (s.cgroup o.ty o.s1 (j - 1) l).mul (x j l)
    let sum (a b c d : CSum) : Flagged := (((a.add b).add c).add d).round o.ty o.rnd
    s.putVs o.e o.v o.d.toNat m o.ty.is64
      [fun l => sum (t 0 l) (t 1 l) (t 2 l) (t 3 l),
       fun l => sum (t 0 l) ((t 1 l).turn inv) (t 2 l).neg ((t 3 l).turn inv).neg,
       fun l => sum (t 0 l) (t 1 l).neg (t 2 l) (t 3 l).neg,
       fun l => sum (t 0 l) ((t 1 l).turn inv).neg (t 2 l).neg ((t 3 l).turn inv)]))

/-- VTWID (R140): cos and minus sin of 2 pi k / 2^m. -/
def execVtwid (o : NOp) (s : State) : Out :=
  .next (s.vop (.vtwid o) o o.ty.is64 (fun l =>
    let e := s.src .n32 o.s1 l % 32
    let v := turnVals (s.src .n32 o.s0 l % 2 ^ e) (2 ^ e)
    let re := twidPart (partFmt o.ty) o.rnd v.1 false
    let im := twidPart (partFmt o.ty) o.rnd v.2 true
    (re.1 + im.1 * 2 ^ (o.ty.bits / 2), re.2 ||| im.2)))

end Sys2Proof.Machine
end

