-- ==== Sys2Proof/Machine/Dispatch.lean ====
section
/-! DEFINITION. Which meaning each instruction has: one arm for each constructor, in the table's order. -/

namespace Sys2Proof.Machine

/-- The meaning of an instruction: one operation of the actor's step, or one event. -/
def exec (i : Instr) (s : State) : Host.Outcome State Fault Refusal :=
  match i with
  | .nop o => Sys2Proof.Machine.execNop o s
  | .bra o => Sys2Proof.Machine.execBra o s
  | .bri o => Sys2Proof.Machine.execBri o s
  | .call o => Sys2Proof.Machine.execCall o s
  | .ret o => Sys2Proof.Machine.execRet o s
  | .exit o => Sys2Proof.Machine.execExit o s
  | .elect o => Sys2Proof.Machine.execElect o s
  | .loop o => Sys2Proof.Machine.execLoop o s
  | .lend o => Sys2Proof.Machine.execLend o s
  | .yield o => Sys2Proof.Machine.execYield o s
  | .sleep o => Sys2Proof.Machine.execSleep o s
  | .trap o => Sys2Proof.Machine.execTrap o s
  | .tret o => Sys2Proof.Machine.execTret o s
  | .signal o => Sys2Proof.Machine.execSignal o s
  | .rdsr o => Sys2Proof.Machine.execRdsr o s
  | .wrsr o => Sys2Proof.Machine.execWrsr o s
  | .bkpt o => Sys2Proof.Machine.execBkpt o s
  | .vadd o => Sys2Proof.Machine.execVadd o s
  | .vsub o => Sys2Proof.Machine.execVsub o s
  | .vaddc o => Sys2Proof.Machine.execVaddc o s
  | .vsubb o => Sys2Proof.Machine.execVsubb o s
  | .vmul o => Sys2Proof.Machine.execVmul o s
  | .vmulh o => Sys2Proof.Machine.execVmulh o s
  | .vmad o => Sys2Proof.Machine.execVmad o s
  | .vmadw o => Sys2Proof.Machine.execVmadw o s
  | .vdiv o => Sys2Proof.Machine.execVdiv o s
  | .vrem o => Sys2Proof.Machine.execVrem o s
  | .vmin o => Sys2Proof.Machine.execVmin o s
  | .vmax o => Sys2Proof.Machine.execVmax o s
  | .vabs o => Sys2Proof.Machine.execVabs o s
  | .vsad o => Sys2Proof.Machine.execVsad o s
  | .vsat o => Sys2Proof.Machine.execVsat o s
  | .vlea o => Sys2Proof.Machine.execVlea o s
  | .vand o => Sys2Proof.Machine.execVand o s
  | .vor o => Sys2Proof.Machine.execVor o s
  | .vxor o => Sys2Proof.Machine.execVxor o s
  | .vandn o => Sys2Proof.Machine.execVandn o s
  | .vshl o => Sys2Proof.Machine.execVshl o s
  | .vshr o => Sys2Proof.Machine.execVshr o s
  | .vsar o => Sys2Proof.Machine.execVsar o s
  | .vrot o => Sys2Proof.Machine.execVrot o s
  | .vfunnel o => Sys2Proof.Machine.execVfunnel o s
  | .vbfe o => Sys2Proof.Machine.execVbfe o s
  | .vbfi o => Sys2Proof.Machine.execVbfi o s
  | .vpopc o => Sys2Proof.Machine.execVpopc o s
  | .vclz o => Sys2Proof.Machine.execVclz o s
  | .vctz o => Sys2Proof.Machine.execVctz o s
  | .vbrev o => Sys2Proof.Machine.execVbrev o s
  | .vpermb o => Sys2Proof.Machine.execVpermb o s
  | .vcmp o => Sys2Proof.Machine.execVcmp o s
  | .vsel o => Sys2Proof.Machine.execVsel o s
  | .vmov o => Sys2Proof.Machine.execVmov o s
  | .vmovi o => Sys2Proof.Machine.execVmovi o s
  | .vaddi o => Sys2Proof.Machine.execVaddi o s
  | .sadd o => Sys2Proof.Machine.execSadd o s
  | .ssub o => Sys2Proof.Machine.execSsub o s
  | .smul o => Sys2Proof.Machine.execSmul o s
  | .smulh o => Sys2Proof.Machine.execSmulh o s
  | .smin o => Sys2Proof.Machine.execSmin o s
  | .smax o => Sys2Proof.Machine.execSmax o s
  | .sand o => Sys2Proof.Machine.execSand o s
  | .sor o => Sys2Proof.Machine.execSor o s
  | .sxor o => Sys2Proof.Machine.execSxor o s
  | .sandn o => Sys2Proof.Machine.execSandn o s
  | .sshl o => Sys2Proof.Machine.execSshl o s
  | .sshr o => Sys2Proof.Machine.execSshr o s
  | .ssar o => Sys2Proof.Machine.execSsar o s
  | .scmp o => Sys2Proof.Machine.execScmp o s
  | .ssel o => Sys2Proof.Machine.execSsel o s
  | .smov o => Sys2Proof.Machine.execSmov o s
  | .smovi o => Sys2Proof.Machine.execSmovi o s
  | .saddi o => Sys2Proof.Machine.execSaddi o s
  | .spopc o => Sys2Proof.Machine.execSpopc o s
  | .sclz o => Sys2Proof.Machine.execSclz o s
  | .sctz o => Sys2Proof.Machine.execSctz o s
  | .slane o => Sys2Proof.Machine.execSlane o s
  | .vput o => Sys2Proof.Machine.execVput o s
  | .vfadd o => Sys2Proof.Machine.execVfadd o s
  | .vfsub o => Sys2Proof.Machine.execVfsub o s
  | .vfmul o => Sys2Proof.Machine.execVfmul o s
  | .vfma o => Sys2Proof.Machine.execVfma o s
  | .vfmin o => Sys2Proof.Machine.execVfmin o s
  | .vfmax o => Sys2Proof.Machine.execVfmax o s
  | .vfminn o => Sys2Proof.Machine.execVfminn o s
  | .vfmaxn o => Sys2Proof.Machine.execVfmaxn o s
  | .vfdiv o => Sys2Proof.Machine.execVfdiv o s
  | .vfsqrt o => Sys2Proof.Machine.execVfsqrt o s
  | .vfrcp o => Sys2Proof.Machine.execVfrcp o s
  | .vfrsq o => Sys2Proof.Machine.execVfrsq o s
  | .vfexp2 o => Sys2Proof.Machine.execVfexp2 o s
  | .vflog2 o => Sys2Proof.Machine.execVflog2 o s
  | .vfsin o => Sys2Proof.Machine.execVfsin o s
  | .vfcos o => Sys2Proof.Machine.execVfcos o s
  | .vfcmp o => Sys2Proof.Machine.execVfcmp o s
  | .vfclass o => Sys2Proof.Machine.execVfclass o s
  | .vfrnd o => Sys2Proof.Machine.execVfrnd o s
  | .vfldexp o => Sys2Proof.Machine.execVfldexp o s
  | .vfabs o => Sys2Proof.Machine.execVfabs o s
  | .vfneg o => Sys2Proof.Machine.execVfneg o s
  | .vcvt o => Sys2Proof.Machine.execVcvt o s
  | .vpk8 o => Sys2Proof.Machine.execVpk8 o s
  | .vupk8 o => Sys2Proof.Machine.execVupk8 o s
  | .vfdot2 o => Sys2Proof.Machine.execVfdot2 o s
  | .vfdot4 o => Sys2Proof.Machine.execVfdot4 o s
  | .vcmul o => Sys2Proof.Machine.execVcmul o s
  | .vcfma o => Sys2Proof.Machine.execVcfma o s
  | .vcconj o => Sys2Proof.Machine.execVcconj o s
  | .vcabs2 o => Sys2Proof.Machine.execVcabs2 o s
  | .vbfly2 o => Sys2Proof.Machine.execVbfly2 o s
  | .vbfly4 o => Sys2Proof.Machine.execVbfly4 o s
  | .vtwid o => Sys2Proof.Machine.execVtwid o s
  | .vshfl o => Sys2Proof.Machine.execVshfl o s
  | .vbcast o => Sys2Proof.Machine.execVbcast o s
  | .vreduce o => Sys2Proof.Machine.execVreduce o s
  | .vscan o => Sys2Proof.Machine.execVscan o s
  | .vballot o => Sys2Proof.Machine.execVballot o s
  | .vmatch o => Sys2Proof.Machine.execVmatch o s
  | .vvote o => Sys2Proof.Machine.execVvote o s
  | .mgroup o => Sys2Proof.Machine.execMgroup o s
  | .mma o => Sys2Proof.Machine.execMma o s
  | .accz o => Sys2Proof.Machine.execAccz o s
  | .accrd o => Sys2Proof.Machine.execAccrd o s
  | .accwr o => Sys2Proof.Machine.execAccwr o s
  | .accst o => Sys2Proof.Machine.execAccst o s
  | .accld o => Sys2Proof.Machine.execAccld o s
  | .accfree o => Sys2Proof.Machine.execAccfree o s
  | .accown o => Sys2Proof.Machine.execAccown o s
  | .accspill o => Sys2Proof.Machine.execAccspill o s
  | .accfill o => Sys2Proof.Machine.execAccfill o s
  | .ldspl o => Sys2Proof.Machine.execLdspl o s
  | .stspl o => Sys2Proof.Machine.execStspl o s
  | .ldgng o => Sys2Proof.Machine.execLdgng o s
  | .stgng o => Sys2Proof.Machine.execStgng o s
  | .atmgng o => Sys2Proof.Machine.execAtmgng o s
  | .ldscr o => Sys2Proof.Machine.execLdscr o s
  | .stscr o => Sys2Proof.Machine.execStscr o s
  | .atmscr o => Sys2Proof.Machine.execAtmscr o s
  | .redscr o => Sys2Proof.Machine.execRedscr o s
  | .pset o => Sys2Proof.Machine.execPset o s
  | .pclr o => Sys2Proof.Machine.execPclr o s
  | .pqry o => Sys2Proof.Machine.execPqry o s
  | .lddom o => Sys2Proof.Machine.execLddom o s
  | .stdom o => Sys2Proof.Machine.execStdom o s
  | .atmdom o => Sys2Proof.Machine.execAtmdom o s
  | .reddom o => Sys2Proof.Machine.execReddom o s
  | .ldhst o => Sys2Proof.Machine.execLdhst o s
  | .sthst o => Sys2Proof.Machine.execSthst o s
  | .atmhst o => Sys2Proof.Machine.execAtmhst o s
  | .copy o => Sys2Proof.Machine.execCopy o s
  | .cseal o => Sys2Proof.Machine.execCseal o s
  | .cwait o => Sys2Proof.Machine.execCwait o s
  | .cpoll o => Sys2Proof.Machine.execCpoll o s
  | .fence o => Sys2Proof.Machine.execFence o s
  | .genbump o => Sys2Proof.Machine.execGenbump o s
  | .coll o => Sys2Proof.Machine.execColl o s
  | .mjoin o => Sys2Proof.Machine.execMjoin o s
  | .mleave o => Sys2Proof.Machine.execMleave o s
  | .mwait o => Sys2Proof.Machine.execMwait o s
  | .barsync o => Sys2Proof.Machine.execBarsync o s
  | .bararv o => Sys2Proof.Machine.execBararv o s
  | .barbytes o => Sys2Proof.Machine.execBarbytes o s
  | .barqry o => Sys2Proof.Machine.execBarqry o s
  | .send o => Sys2Proof.Machine.execSend o s
  | .sendmem o => Sys2Proof.Machine.execSendmem o s
  | .jwait o => Sys2Proof.Machine.execJwait o s
  | .timepost o => Sys2Proof.Machine.execTimepost o s
  | .timepostCancel o => Sys2Proof.Machine.execTimepostCancel o s
  | .portqry o => Sys2Proof.Machine.execPortqry o s
  | .patarm o => Sys2Proof.Machine.execPatarm o s
  | .heapput o => Sys2Proof.Machine.execHeapput o s
  | .heappop w o => Sys2Proof.Machine.execHeappop w o s
  | .heapdone o => Sys2Proof.Machine.execHeapdone o s
  | .gainadd o => Sys2Proof.Machine.execGainadd o s
  | .heapsum o => Sys2Proof.Machine.execHeapsum o s
  | .heapdrain o => Sys2Proof.Machine.execHeapdrain o s
  | .kwsel o => Sys2Proof.Machine.execKwsel o s
  | .kwret o => Sys2Proof.Machine.execKwret o s
  | .kwload o => Sys2Proof.Machine.execKwload o s
  | .kwswap o => Sys2Proof.Machine.execKwswap o s
  | .kwinv o => Sys2Proof.Machine.execKwinv o s
  | .tlbinv o => Sys2Proof.Machine.execTlbinv o s
  | .wipe o => Sys2Proof.Machine.execWipe o s
  | .patternFire sec => Sys2Proof.Machine.execPatternFire sec s
  | .gangAdmission part => Sys2Proof.Machine.execGangAdmission part s
  | .supervisorPreempt gang => Sys2Proof.Machine.execSupervisorPreempt gang s
  | .saveDrainTimeout gang => Sys2Proof.Machine.execSaveDrainTimeout gang s
  | .loadReply warp reply lanes => Sys2Proof.Machine.execLoadReply warp reply lanes s
  | .rejectRetry cluster => Sys2Proof.Machine.execRejectRetry cluster s
  | .parkWake warp => Sys2Proof.Machine.execParkWake warp s
  | .issueAgeGuard quad => Sys2Proof.Machine.execIssueAgeGuard quad s
  | .memportAtomic op => Sys2Proof.Machine.execMemportAtomic op s
  | .memportReduction ops => Sys2Proof.Machine.execMemportReduction ops s
  | .fenceSatisfied warp => Sys2Proof.Machine.execFenceSatisfied warp s
  | .copyLineLand copy line => Sys2Proof.Machine.execCopyLineLand copy line s
  | .copyComplete copy => Sys2Proof.Machine.execCopyComplete copy s
  | .copyFail copy internal => Sys2Proof.Machine.execCopyFail copy internal s
  | .collComplete coll peers => Sys2Proof.Machine.execCollComplete coll peers s
  | .collPeerAbort coll => Sys2Proof.Machine.execCollPeerAbort coll s
  | .matrixQueueExecute quad => Sys2Proof.Machine.execMatrixQueueExecute quad s
  | .sendmemComplete job => Sys2Proof.Machine.execSendmemComplete job s
  | .heapUnitApply sec => Sys2Proof.Machine.execHeapUnitApply sec s
  | .heapPopperWake ctx heap => Sys2Proof.Machine.execHeapPopperWake ctx heap s
  | .portSwapIn ctx port => Sys2Proof.Machine.execPortSwapIn ctx port s
  | .portSenderRetry ctx port => Sys2Proof.Machine.execPortSenderRetry ctx port s
  | .timerPost part handle => Sys2Proof.Machine.execTimerPost part handle s
  | .sleepDeadline warp => Sys2Proof.Machine.execSleepDeadline warp s
  | .gangWatchdogExpiry gang => Sys2Proof.Machine.execGangWatchdogExpiry gang s
  | .partitionWatchdogExpiry part => Sys2Proof.Machine.execPartitionWatchdogExpiry part s
  | .partitionWatchdogRestart part => Sys2Proof.Machine.execPartitionWatchdogRestart part s
  | .codePageVerified ctx page => Sys2Proof.Machine.execCodePageVerified ctx page s
  | .pageMigration part page sec => Sys2Proof.Machine.execPageMigration part page sec s
  | .hostCompletionTimeout warp reply => Sys2Proof.Machine.execHostCompletionTimeout warp reply s
  | .hostStoreFail store => Sys2Proof.Machine.execHostStoreFail store s
  | .hostPortWrite fn offset bytes => Sys2Proof.Machine.execHostPortWrite fn offset bytes s
  | .hostApertureWrite fn offset bytes => Sys2Proof.Machine.execHostApertureWrite fn offset bytes s
  | .hostApertureRead fn offset len => Sys2Proof.Machine.execHostApertureRead fn offset len s
  | .hostAtomicop fn offset => Sys2Proof.Machine.execHostAtomicop fn offset s
  | .functionLevelReset fn => Sys2Proof.Machine.execFunctionLevelReset fn s
  | .ctxgo fn install => Sys2Proof.Machine.execCtxgo fn install s
  | .registerWrite reg val => Sys2Proof.Machine.execRegisterWrite reg val s
  | .ptmResponse time => Sys2Proof.Machine.execPtmResponse time s
  | .ppsInput ago => Sys2Proof.Machine.execPpsInput ago s
  | .timeSourceLoss => Sys2Proof.Machine.execTimeSourceLoss s
  | .flitCrcFail link => Sys2Proof.Machine.execFlitCrcFail link s
  | .rankUnreachable rank => Sys2Proof.Machine.execRankUnreachable rank s
  | .ensembleRegister members => Sys2Proof.Machine.execEnsembleRegister members s
  | .ensembleDeregister ens rank => Sys2Proof.Machine.execEnsembleDeregister ens rank s
  | .uncorrectableError site corrected => Sys2Proof.Machine.execUncorrectableError site corrected s
  | .killRequest ctx => Sys2Proof.Machine.execKillRequest ctx s
  | .driverKillRequest ctx => Sys2Proof.Machine.execDriverKillRequest ctx s
  | .allocScr part => Sys2Proof.Machine.execAllocScr part s
  | .allocHbm part => Sys2Proof.Machine.execAllocHbm part s
  | .free part => Sys2Proof.Machine.execFree part s
  | .place part => Sys2Proof.Machine.execPlace part s
  | .mboxen part => Sys2Proof.Machine.execMboxen part s
  | .powerGood image => Sys2Proof.Machine.execPowerGood image s
  | .powerWindow part power => Sys2Proof.Machine.execPowerWindow part power s
  | .inputFault => Sys2Proof.Machine.execInputFault s
  | .powerOff => Sys2Proof.Machine.execPowerOff s
  | .reset part => Sys2Proof.Machine.execReset part s
  | .dump part opts => Sys2Proof.Machine.execDump part opts s
  | .dumpTimeout part => Sys2Proof.Machine.execDumpTimeout part s
  | .cap watts shares => Sys2Proof.Machine.execCap watts shares s
  | .time ptmOnly => Sys2Proof.Machine.execTime ptmOnly s
  | .counters part => Sys2Proof.Machine.execCounters part s
  | .firmware bank image => Sys2Proof.Machine.execFirmware bank image s
  | .attest => Sys2Proof.Machine.execAttest s
  | .getVersion => Sys2Proof.Machine.execGetVersion s
  | .getCapabilities => Sys2Proof.Machine.execGetCapabilities s
  | .negotiateAlgorithms supported => Sys2Proof.Machine.execNegotiateAlgorithms supported s
  | .getDigests => Sys2Proof.Machine.execGetDigests s
  | .getCertificate => Sys2Proof.Machine.execGetCertificate s
  | .challenge nonce => Sys2Proof.Machine.execChallenge nonce s
  | .getMeasurements index => Sys2Proof.Machine.execGetMeasurements index s
  | .lifecycleTransition target request => Sys2Proof.Machine.execLifecycleTransition target request s
  | .codeKeyEnrol part index key request => Sys2Proof.Machine.execCodeKeyEnrol part index key request s
  | .debugRightGrant ctx session => Sys2Proof.Machine.execDebugRightGrant ctx session s
  | .debugRightEnd ctx => Sys2Proof.Machine.execDebugRightEnd ctx s
  | .halt gang => Sys2Proof.Machine.execHalt gang s
  | .step warp => Sys2Proof.Machine.execStep warp s
  | .resume gang => Sys2Proof.Machine.execResume gang s
  | .stopat gang interval count => Sys2Proof.Machine.execStopat gang interval count s
  | .debuggerEdit target => Sys2Proof.Machine.execDebuggerEdit target s
  | .watchpointWrite ctx index addr ctl => Sys2Proof.Machine.execWatchpointWrite ctx index addr ctl s
  | .breakpointWrite ctx index addr slot enabled => Sys2Proof.Machine.execBreakpointWrite ctx index addr slot enabled s
  | .stopRecordRead warp => Sys2Proof.Machine.execStopRecordRead warp s
  | .replayCheckpoint gang => Sys2Proof.Machine.execReplayCheckpoint gang s
  | .laneCycleRead ctx => Sys2Proof.Machine.execLaneCycleRead ctx s
  | .laneCycleClear ctx => Sys2Proof.Machine.execLaneCycleClear ctx s
  | .domainAcknowledgement ack => Sys2Proof.Machine.execDomainAcknowledgement ack s
  | .linkRetrainDone link => Sys2Proof.Machine.execLinkRetrainDone link s
  | .inputBackInRange => Sys2Proof.Machine.execInputBackInRange s
  | .keywayStatusWrite job => Sys2Proof.Machine.execKeywayStatusWrite job s
  | .wipeCompletion job => Sys2Proof.Machine.execWipeCompletion job s
  | .tlbinvStatusWrite job => Sys2Proof.Machine.execTlbinvStatusWrite job s
  | .ppsOutput => Sys2Proof.Machine.execPpsOutput s
  | .dumpStreamEnd part => Sys2Proof.Machine.execDumpStreamEnd part s
  | .gangKill gang launch => Sys2Proof.Machine.execGangKill gang launch s
  | .recordConsume ctx count debug => Sys2Proof.Machine.execRecordConsume ctx count debug s

end Sys2Proof.Machine
end

