-- ==== Sys2Proof/Machine/Step.lean ====
section
/-! DEFINITION. One step of the package: one turn of one agent, and the host's placing of one instruction word. -/
set_option autoImplicit false

namespace Sys2Proof.Machine

/-- What follows an issue. -/
def afterExec (u : Nat) : Host.Outcome State Fault Refusal → Host.Outcome State Fault Refusal
  | .next s => .next (s.afterIssue u)
  | .fault r => .fault r
  | .refused r => .refused r

/-- Execute the next operation of the warp that a quadrant issues for. (DESIGN CHOICE, log 7: unsafe; DESIGN CHOICE, log 12: safe.) -/
def issueTurn (s : State) (q : Nat) : Host.Outcome State Fault Refusal :=
  match s.pickWarp q with
  | none => .next s
  | some u =>
    let s := s.prepare u
    match (s.warp u).step.ops with
    | [] => .next (s.afterIssue u)
    | i :: _ => afterExec u (exec i s)

/-- One turn. (DESIGN CHOICE, log 7: unsafe.) -/
def runTurn (t : Turn) (s : State) : Host.Outcome State Fault Refusal :=
  match t with
  | .event i => if s.reaches i then exec i (s.takeInput i) else .next (s.takeInput i)
  | .issue q => issueTurn s q
  | .hostDeliver n => .next (s.hostDeliver n)
  | .hostError u id m ur => .next (s.hostError u id m ur)
  | .barRead fn bar off n => if s.mc.pcieDown then .next s else execBarRead fn bar off n s
  | .barWrite fn off x => if s.mc.pcieDown then .next s else execBarWrite fn off x s
  | .flitOk l => .next (s.flitOk l)
  | .debugRead x => execDebugRead x s
  | .rerun g => .next (s.rerunNext g)
  | .storePerform n => .next (if s.heldFirst n then s.performHeld n else s)
  | .storeUnit n k => .next (s.performUnit n k)
  | .storeLine n k => .next (s.performLine n k)
  | .storeShow n c => .next (s.showHeld n c)
  | .loadLate u id k => .next (s.loadLate u id k)
  | .matUnit q i k => .next (s.matUnit q i k)
  | .copyUnit n k => .next (s.copyUnit n k)
  | .collUnit n k => .next (s.collUnit n k)
  | .sendUnit n k => .next (s.sendUnit n k)
  | .unitTake n => .next (s.unitTake n)
  | .repost => .next s.repost
  | .atomicLane n => .next (if s.laneFirst n then s.atomicLane n else s)
  | .termGroup ts => .next (s.termGroup ts)
  | .save g => .next (s.saveGang g)
  | .rollback g => .next (s.rollbackNow g)
  | .acked n => execDomainAcknowledgement n s
  | .kwDone n => execKeywayStatusWrite n s
  | .wipeDone n => execWipeCompletion n s
  | .tlbDone n => execTlbinvStatusWrite n s
  | .checkpoint g => execReplayCheckpoint g s
  | .pulse => execPpsOutput s
  | .streamEnd p => execDumpStreamEnd p s
  | .integrityKill ck => .next (s.integrityKill ck)
  | .evictWalk k => .next (s.evictWalk k)
  | .evictTlb k => .next (s.evictTlb k)
  | .evictLine c k => .next (s.dropLine c k)
  | .evictCode c k => .next (s.evictCode c k)
  | .tick => .next s.tick

/-- One step: a package without power and without a queued event is stuck, and takes from its queue only what the module does without it;
otherwise one turn is chosen and taken. -/
def step (s : State) : Host.Outcome State Fault Refusal :=
  if !s.powered then
    match s.inputs with
    | [] => .fault .poweredOff
    | i :: _ => if worksOff i then exec i (s.takeInput i) else .next (s.takeInput i)
  else runTurn s.chooseTurn.1 s.chooseTurn.2

/-- The state with one instruction word placed where the next step fetches it. (DESIGN CHOICE, log 1: safe.) -/
def State.withFetchWord (s : State) (nbits w : Nat) : State := s.placeWord (BitVec.ofNat 64 (w % 2 ^ nbits))

end Sys2Proof.Machine
end

