-- ==== Sys2Proof/Safety.lean ====
section
/-! DEFINITION. What claims speak of: the canonical form of the state, an executing operation at rest, what an operation leaves
alone, and the shapes in which the results of the instruction families are stated. -/
set_option autoImplicit false

namespace Sys2Proof.Machine

/-! ### The invariant of memory -/

/-- Memory is in its canonical form. -/
def State.memOk (s : State) : Prop := Memory.wf s.mem = true

/-! ### What is left alone -/

/-- Every byte of memory reads as before. -/
def State.sameBytes (s t : State) : Prop := ∀ a, t.byte a = s.byte a

/-- Every byte outside the locations of a list reads as before. -/
def State.sameBytesBut (s t : State) (locs : List Nat) : Prop := ∀ a, a ∉ locs → t.byte a = s.byte a

/-- Only the executing warp, the counters of gangs and the users of loop buffers may differ. -/
def State.onlyWarp (s t : State) : Prop :=
  { t with warps := s.warps, gangs := s.gangs, quads := s.quads } = s ∧ (∀ v, v ≠ s.actor → t.warp v = s.warp v) ∧
  ∀ q, { t.quad q with loopBuf := (s.quad q).loopBuf } = s.quad q

/-! ### An operation at rest -/

/-- The executing warp waits for nothing, is not retried, not single-stepped, has a lane left, and its gang is neither halted by a
debugger nor recorded for replay, and its watchdog has not expired: nothing but the step itself happens at its commit. -/
abbrev State.atRest (s : State) : Prop :=
  s.me.wait = .ready ∧ s.me.stepping = false ∧ s.me.tryPort = none ∧ s.me.tryHeap = none ∧ s.me.unexited ≠ 0#32
  ∧ (s.gangOf s.me).halted = false ∧ (s.gangOf s.me).wdPend = false ∧ (s.launch (s.gangOf s.me).launch).replay = false

/-- A write of a general register. -/
def Buf.isWrite : Buf → Bool
  | .vec _ _ _ => true
  | .scal _ _ | .mscal _ _ => true
  | _ => false

/-- What a list of buffered writes leaves in lane `l` of vector register `r`: the last write that reaches it; none if none does. -/
def lastVec (bs : List Buf) (r l : Nat) : Option Word :=
  bs.foldl (fun a b => match b with
    | .vec q m v => if q = r ∧ m.has l = true then some (v.at l) else a
    | _ => a) none

/-- What a list of buffered writes leaves in scalar register `r`. -/
def lastScal (bs : List Buf) (r : Nat) : Option Word :=
  bs.foldl (fun a b => match b with
    | .scal q x | .mscal q x => if q = r then some x else a
    | _ => a) none

/-- The conditions of a list as bits [6:0] of FLAGS. -/
def condBits (cs : List Cond) : Nat := cs.foldl (fun a x => if x.bit < 7 then a ||| 2 ^ x.bit else a) 0

/-! ### Results by family -/

/-- The element values of one lane packed into a register or pair (R85). -/
def packed (t : Ty) (f : Nat → Nat) : Nat := (List.range t.elems).foldl (fun a k => a + f k * 2 ^ (t.bits * k)) 0

/-- The flags of the elements of one lane together (R123). -/
def joined (t : Ty) (f : Nat → Nat) : Nat := (List.range t.elems).foldl (fun a k => a ||| f k) 0

/-- The buffered writes of a vector result: the low word to D, the high word of a pair to D + 1, nothing when V = 1 (R26, R46). -/
def vecWrites (v : Bool) (d : Nat) (wide : Bool) (m : Mask) (x : Nat → Nat) : List Buf :=
  if v then [] else Buf.vec d m (lowWords x) :: (if wide then [Buf.vec (d + 1) m (highWords x)] else [])

/-- The buffered writes of a scalar result: none when V = 1 or when no lane executes (R107). -/
def scalWrites (v : Bool) (d : Nat) (wide : Bool) (m : Mask) (x : Nat) : List Buf :=
  if v || m = 0#32 then [] else Buf.scal d (BitVec.ofNat 32 x) :: (if wide then [Buf.scal (d + 1) (BitVec.ofNat 32 (x / 2 ^ 32))] else [])

/-- `exec` of a vector instruction answers a next state: the values and flags of the lanes in exec() satisfy `P`; b0 and D take the
values, and each flag is recorded for its lanes. -/
def vectorResult (i : Instr) (o : NOp) (s : State) (wide : Bool) (P : Nat → Nat → Nat → Prop) : Prop :=
  ∃ x fl : Nat → Nat, (∀ l, (s.me.execSet o.g).has l = true → P l (x l) (fl l))
    ∧ exec i s = .next (s.finish o.e (some (lowWords x)) (vecWrites o.v o.d.toNat wide (s.me.execSet o.g) x)
        (condsOf s.me.step.idx (s.me.execSet o.g) fl))

/-- `exec` of a scalar instruction answers a next state with the uniform value `x`. -/
def scalarResult (i : Instr) (o : NOp) (s : State) (wide : Bool) (x : Nat) : Prop :=
  exec i s = .next (s.finish o.e (some (Lanes.splat (BitVec.ofNat 32 x))) (scalWrites o.v o.d.toNat wide (s.me.execSet o.g) x) [])

/-- The operands of a guarded instruction carry no poison in the lanes that execute (R350). -/
abbrev State.readable (s : State) (i : Instr) (g : Guard) : Prop := s.me.poisoned i (s.me.execSet g) = none

/-- Element `k` of a source in a lane, read by the type (R106). -/
def State.element (s : State) (t : Ty) (x : Src) (l k : Nat) : Int := readInt t.signed t.bits (elemNat t.bits k (s.src t x l))

/-- Element `k` of a floating source in a lane. -/
def State.felement (s : State) (t : Ty) (x : Src) (l k : Nat) : XReal := decodeVal (Fmt.ofTy t) (elemNat t.bits k (s.src t x l))

/-! ### The element results of R111, R114 to R116, as the tables give them -/

/-- The number of ones of a value. -/
def onesOf {w : Nat} (a : BitVec w) : Nat := ((List.range w).filter (fun i => a.getLsbD i)).length

/-- The distance of the first one from the top, or from the bottom; the width for zero. -/
def leadingOf {w : Nat} (a : BitVec w) : Nat := ((List.range w).find? (fun i => a.getMsbD i)).getD w
def trailingOf {w : Nat} (a : BitVec w) : Nat := ((List.range w).find? (fun i => a.getLsbD i)).getD w

/-- Byte `j` of VPERMB's result (R116). -/
def permByte (a b sel j : Nat) : Nat :=
  let n := sel / 2 ^ (4 * j) % 16
  let x := (if n % 8 < 4 then a / 2 ^ (8 * (n % 8)) else b / 2 ^ (8 * (n % 8 - 4))) % 256
  if n / 8 = 0 then x else if x / 128 = 1 then 255 else 0

/-- The exact element results of the integer instructions whose element function is a table row of R111 or R114: from the width and
the elements of the three sources. -/
def integerRows : List ((NOp → Instr) × (Nat → Int → Int → Int → Int)) :=
  [(.vadd, fun _ a b _ => a + b),
   (.vsub, fun _ a b _ => a - b),
   (.vmul, fun _ a b _ => a * b),
   (.vmulh, fun w a b _ => Int.fdiv (a * b) (2 ^ w)),
   (.vmad, fun _ a b c => a * b + c),
   (.vmin, fun _ a b _ => if a ≤ b then a else b),
   (.vmax, fun _ a b _ => if a ≤ b then b else a),
   (.vabs, fun _ a _ _ => (a.natAbs : Int)),
   (.vand, fun w a b _ => ((BitVec.ofInt w a &&& BitVec.ofInt w b).toNat : Int)),
   (.vor, fun w a b _ => ((BitVec.ofInt w a ||| BitVec.ofInt w b).toNat : Int)),
   (.vxor, fun w a b _ => ((BitVec.ofInt w a ^^^ BitVec.ofInt w b).toNat : Int)),
   (.vandn, fun w a b _ => ((BitVec.ofInt w a &&& ~~~(BitVec.ofInt w b)).toNat : Int)),
   (.vshl, fun w a b _ => if raw w b < w then a * 2 ^ raw w b else 0),
   (.vshr, fun w a b _ => ((BitVec.ofInt w a >>> raw w b).toNat : Int)),
   (.vsar, fun w a b _ => ((BitVec.ofInt w a).sshiftRight (raw w b)).toInt),
   (.vrot, fun w a b _ => (((BitVec.ofInt w a).rotateLeft (raw w b)).toNat : Int)),
   (.vpopc, fun w a _ _ => (onesOf (BitVec.ofInt w a) : Int)),
   (.vclz, fun w a _ _ => (leadingOf (BitVec.ofInt w a) : Int)),
   (.vctz, fun w a _ _ => (trailingOf (BitVec.ofInt w a) : Int)),
   (.vbrev, fun w a _ _ => ((BitVec.ofInt w a).reverse.toNat : Int)),
   (.vmov, fun _ a _ _ => a)]

/-- The scalar instructions and the element results of their vector counterparts (R118). -/
def scalarRows : List ((NOp → Instr) × (Nat → Int → Int → Int → Int)) :=
  [(.sadd, fun _ a b _ => a + b),
   (.ssub, fun _ a b _ => a - b),
   (.smul, fun _ a b _ => a * b),
   (.smulh, fun w a b _ => Int.fdiv (a * b) (2 ^ w)),
   (.smin, fun _ a b _ => if a ≤ b then a else b),
   (.smax, fun _ a b _ => if a ≤ b then b else a),
   (.sand, fun w a b _ => ((BitVec.ofInt w a &&& BitVec.ofInt w b).toNat : Int)),
   (.sor, fun w a b _ => ((BitVec.ofInt w a ||| BitVec.ofInt w b).toNat : Int)),
   (.sxor, fun w a b _ => ((BitVec.ofInt w a ^^^ BitVec.ofInt w b).toNat : Int)),
   (.sandn, fun w a b _ => ((BitVec.ofInt w a &&& ~~~(BitVec.ofInt w b)).toNat : Int)),
   (.sshl, fun w a b _ => if raw w b < w then a * 2 ^ raw w b else 0),
   (.sshr, fun w a b _ => ((BitVec.ofInt w a >>> raw w b).toNat : Int)),
   (.ssar, fun w a b _ => ((BitVec.ofInt w a).sshiftRight (raw w b)).toInt),
   (.smov, fun _ a _ _ => a),
   (.spopc, fun w a _ _ => (onesOf (BitVec.ofInt w a) : Int)),
   (.sclz, fun w a _ _ => (leadingOf (BitVec.ofInt w a) : Int)),
   (.sctz, fun w a _ _ => (trailingOf (BitVec.ofInt w a) : Int))]

/-- The comparisons of R117 by code, on elements as read. -/
def comparison (code w : Nat) (a b : Int) : Prop :=
  match code with
  | 0 => a = b
  | 1 => a ≠ b
  | 2 => a < b
  | 3 => a ≤ b
  | 4 => a > b
  | 5 => a ≥ b
  | 6 => BitVec.ofInt w a &&& BitVec.ofInt w b ≠ 0
  | _ => BitVec.ofInt w a &&& BitVec.ofInt w b = 0

/-- A finite exact value, and the rational number that it is. -/
def XReal.finite (x : XReal) : Prop := ∃ s n d, x = .fin s n d ∧ 0 < d
def XReal.rat : XReal → Rat
  | .fin s n d => (if s then -1 else 1) * (n : Rat) / (d : Rat)
  | _ => 0

/-- p / q is the square root of n / d, to within one unit of p, which has at least 140 bits. -/
def isRoot (n d p q : Nat) : Prop := 0 < q ∧ 2 ^ 140 ≤ p ∧ (p - 1) ^ 2 * d ≤ n * q ^ 2 ∧ n * q ^ 2 ≤ (p + 1) ^ 2 * d

/-- The floating instructions that round an exact expression of their sources once (R125, R126): the number of sources, and the
exact value with the flags of forming it. -/
def floatRows : List ((NOp → Instr) × Nat × FltFn) :=
  [(.vfadd, 2, fun m a b _ => xadd m a b),
   (.vfsub, 2, fun m a b _ => xadd m a b.neg),
   (.vfmul, 2, fun _ a b _ => xmul a b),
   (.vfma, 3, fun m a b c => xdot m [(a, b)] [c]),
   (.vfdiv, 2, fun _ a b _ => xdiv a b),
   (.vfsqrt, 1, gSqrt),
   (.vfrnd, 1, gRnd)]

/-- INVALID for a signalling NaN among the first `n` of three operands (R90). -/
def sigOf (n : Nat) (a b c : XReal) : Nat :=
  if a.isSig || (decide (2 ≤ n) && b.isSig) || (decide (3 ≤ n) && c.isSig) then fINVALID else 0

/-- The relations of VFCMP by code (R128): -0 equals +0, and an unordered pair satisfies NE and UN alone. -/
def floatRelation (code : Nat) (a b : XReal) : Prop :=
  match code with
  | 0 => a.eqv b = true
  | 1 => a.eqv b = false
  | 2 => a.lt b = true
  | 3 => a.lt b = true ∨ a.eqv b = true
  | 4 => b.lt a = true
  | 5 => b.lt a = true ∨ a.eqv b = true
  | 6 => a.isNan = true ∨ b.isNan = true
  | _ => a.isNan = false ∧ b.isNan = false

/-- INVALID of VFCMP: codes 2 to 5 for any NaN, the others for a signalling one (R128). -/
def floatRelationFlags (code : Nat) (a b : XReal) : Nat :=
  if a.isSig || b.isSig || (2 ≤ code && code ≤ 5 && (a.isNan || b.isNan)) then fINVALID else 0

/-- The class bit of a value (R129); `low` says that its exponent field is zero. -/
def floatClass (x : XReal) (low : Bool) : Nat :=
  match x with
  | .inf neg => if neg then 0 else 7
  | .nan sig => if sig then 8 else 9
  | .fin neg n _ => if n = 0 then (if neg then 3 else 4) else if low then (if neg then 2 else 5) else (if neg then 1 else 6)

/-! ### Complex values and subgroups (R91, R137, R141, R144) -/

/-- The two parts of a complex register value. -/
def cparts (t : Ty) (v : Nat) : XReal × XReal :=
  (decodeVal (partFmt t) (v % 2 ^ (t.bits / 2)), decodeVal (partFmt t) (v / 2 ^ (t.bits / 2) % 2 ^ (t.bits / 2)))

/-- Two sums of exact terms, each rounded once into its part, with the flags of the sums and of the roundings (R137). -/
def cround (t : Ty) (m : Rnd) (re im : List XReal) : Flagged :=
  let r := xsum m re
  let i := xsum m im
  let cr := round (partFmt t) m false r.1
  let ci := round (partFmt t) m false i.1
  (cr.1 + ci.1 * 2 ^ (t.bits / 2), r.2 ||| i.2 ||| cr.2 ||| ci.2)

/-- The terms of the exact product of two complex values. -/
def cprodRe (a b : XReal × XReal) : List XReal := [(xmul a.1 b.1).1, (xmul a.2 b.2).1.neg]
def cprodIm (a b : XReal × XReal) : List XReal := [(xmul a.1 b.2).1, (xmul a.2 b.1).1]
/-- The flags of forming it: 0 times an infinity, a signalling NaN. -/
def cprodFlags (a b : XReal × XReal) : Nat :=
  (xmul a.1 b.1).2 ||| (xmul a.2 b.2).2 ||| (xmul a.1 b.2).2 ||| (xmul a.2 b.1).2
    ||| (if [a.1, a.2, b.1, b.2].any XReal.isSig then fINVALID else 0)

/-- The buffered writes of several results in consecutive registers or pairs. -/
def groupWrites (v : Bool) (d : Nat) (wide : Bool) (m : Mask) (xs : List (Nat → Nat)) : List Buf :=
  xs.zipIdx.flatMap (fun p => vecWrites v (d + (if wide then 2 else 1) * p.2) wide m p.1)

/-- A source complex value of a register group (R136). -/
def State.cvalue (s : State) (t : Ty) (x : Src) (j l : Nat) : XReal × XReal :=
  match x with
  | .vec n => cparts t (s.src t (.vec (n + BitVec.ofNat 8 (if t.is64 then 2 * j else j))) l)
  | y => cparts t (s.src t y l)

/-- Node (p, s) of the fixed reduction tree (R144): a node whose children both contribute combines them, one child passes. -/
def treeNode (f : Nat → Nat → Flagged) (leaf : Nat → Option Nat) : Nat → Nat → Option Nat × Nat
  | 0, p => (leaf p, 0)
  | s + 1, p =>
    let a := treeNode f leaf s p
    let b := treeNode f leaf s (p + 2 ^ s)
    match a.1, b.1 with
    | some x, some y => (some (f x y).1, a.2 ||| b.2 ||| (f x y).2)
    | some x, none => (some x, a.2 ||| b.2)
    | none, y => (y, a.2 ||| b.2)

/-- The left fold of a list with the flags of its steps, and those alone for an empty one (R144). -/
def leftFold (f : Nat → Nat → Flagged) : List Nat → Flagged
  | [] => (0, 0)
  | v :: vs => vs.foldl (fun acc u => ((f acc.1 u).1, acc.2 ||| (f acc.1 u).2)) (v, 0)

/-! ### A step that its last operation closes -/

/-- The executing operation can close its step: the warp is at rest, the earlier operations have buffered only register writes and have branched
nowhere, and no condition enabled in FPCTL has been raised. -/
abbrev State.closing (s : State) : Prop :=
  s.atRest ∧ s.me.step.buf.all Buf.isWrite = true ∧ s.me.step.nexts = [] ∧ ∀ c ∈ s.me.step.conds, s.me.sp.fpctl.getLsbD c.bit = false

/-- The step has committed in `t`: its buffered writes and the further `writes` stand in operation order, lane `l` of the warp continues at
`vpc l`, STEPS has counted, no latch is left, and no byte and no other warp has changed. -/
def State.committed (s t : State) (writes : List Buf) (vpc : Nat → Word) : Prop :=
  (∀ r l, l < 32 → (t.warp s.actor).vword r l = (lastVec (s.me.step.buf ++ writes) r l).getD (s.me.vword r l)) ∧
  (∀ r, (t.warp s.actor).sword r = (lastScal (s.me.step.buf ++ writes) r).getD (s.me.sword r)) ∧
  (∀ l, l < 32 → (t.warp s.actor).vpcAt l = vpc l) ∧
  (t.warp s.actor).sp.steps = s.me.sp.steps + 1 ∧ (t.warp s.actor).step = {} ∧ (t.warp s.actor).live = s.me.live ∧
  s.sameBytes t ∧ ∀ v, v ≠ s.actor → t.warp v = s.warp v

/-- Every lane of the issue set continues at the end of the step, every other lane where it was (R28). -/
def State.pastStep (s : State) (l : Nat) : Word := if s.me.step.issue.has l then s.me.stepEnd else s.me.vpcAt l

/-- The lanes of `m` continue at `f l`, the other lanes of the issue set at the end of the step (R259). -/
def State.branched (s : State) (m : Mask) (f : Nat → Word) (l : Nat) : Word := if m.has l && s.me.step.issue.has l then f l else s.pastStep l

/-- A state in which the trap registers of a warp hold these values (R343). -/
def Warp.trapped (w : Warp) (cause : Nat) (tpc taddr tinfo : Word) (tmask : Mask) : Prop :=
  w.sp.tcause = BitVec.ofNat 32 cause ∧ w.sp.tpc = tpc ∧ w.sp.taddr = taddr ∧ w.sp.tinfo = tinfo ∧ w.sp.tmask = tmask

/-! ### A fetched operation -/

/-- The warp may run a decoded operation that stands alone in its step: privilege, budget, no latch (checks 2, 5 and 6 of R54, R177). -/
def Warp.mayRun (w : Warp) (i : Instr) : Prop :=
  (w.isSup = true ∨ (i.supervisor = false ∧ (∀ o, (i = .rdsr o ∨ i = .wrsr o) → o.imm.toNat % 64 < 0x20))) ∧
  (∀ r ∈ i.reads ++ i.writes, w.named r = true) ∧ i.latchReads = [] ∧
  (∀ o, (i = .stspl o ∨ i = .stgng o ∨ i = .stscr o ∨ i = .stdom o ∨ i = .sthst o) → ∀ r ∈ o.data.runs (sizeRegs o.size), straddles w.sbudget r = false)

/-! ### Accesses to memory -/

/-- The locations of every lane's bytes. -/
def refLocs (refs : List LaneRef) : List Nat := refs.flatMap LaneRef.locs

/-- Every access of the executing warp so far, and every write that it sees, has performed, and it owes no release: none waits in a write queue,
in the table of held stores, as a WIPE or on its way to the host, and no load, of the warp or of its matrix operations, may take a later
value. -/
abbrev State.drained (s : State) : Prop :=
  s.ownOps s.actor = [] ∧ s.seenHost s.actor = [] ∧ s.ownHost s.actor = [] ∧ s.ownWipes s.actor (fun _ _ => true) = [] ∧ s.me.owes = []
  ∧ s.heldStores.all (fun e => !e.2.seenBy s.actor (quadCluster s.me.quad)) = true
  ∧ s.me.replies.all (fun r => r.2.late.isEmpty && !r.2.acq && !r.2.bump) = true
  ∧ s.quads.all (fun e => e.2.queue.all (fun o => o.src.all (fun x => x.warp != s.actor || x.late.isEmpty))) = true

/-- The side effect of the executing operation performs once its checks pass: no condition enabled in FPCTL has been raised, and no later
operation of the step reads a poisoned word (R6, R30, R349). -/
abbrev State.sure (s : State) (e : Bool) : Prop := s.me.enabledConds = [] ∧ (e = true ∨ s.laterPoison = none)

/-- The memory after a store by lanes: every location outside is as before, and a stored one holds the byte of the highest lane that stores there, that lane
storing there once (R179). -/
def State.stored (s t : State) (refs : List LaneRef) (data : Nat → List Byte) : Prop :=
  s.sameBytesBut t (refLocs refs) ∧
  ∀ r ∈ refs, ∀ k a, r.locs[k]? = some a → (∀ j, r.locs[j]? = some a → j = k) → (∀ q ∈ refs, r.lane < q.lane → a ∉ q.locs) →
    t.byte a = (data r.lane).getD k 0#8

/-- The code window holds a whole, valid image of `img` at `va`, within the length operand and its code object (R65 to R69, R82). -/
def State.goodImage (s : State) (va len : Nat) (img : List Byte) : Prop :=
  let g := s.gangOf s.me
  va % 2 ^ 28 + len ≤ (s.ctx (s.ckOf s.me)).objLen.get (objOf va) ∧ 64 ≤ len ∧ imgHeaderOk img len = true ∧ imgOffence img = none ∧
  ∃ h, s.readCode g.part g.ctx va 64 = .ok h ∧ imgLen h = imgLen img ∧ 64 ≤ imgLen h ∧ imgLen h ≤ len ∧ imgLen h ≤ 176252 ∧ s.readCode g.part g.ctx va (imgLen h) = .ok img

/-- No register of any warp has changed, and of other warps nothing but what woke them. -/
def State.sameButWoken (s t : State) : Prop := t.actor = s.actor ∧ t.me.regs = s.me.regs ∧ t.me.sp = s.me.sp ∧ t.me.step.buf = s.me.step.buf ∧
  ∀ v, v ≠ s.actor → { t.warp v with woken := (s.warp v).woken } = s.warp v

/-- No register of any warp has changed, and no other warp at all. -/
def State.sameRegs (s t : State) : Prop := t.actor = s.actor ∧ t.me.regs = s.me.regs ∧ t.me.sp = s.me.sp ∧ t.me.step.buf = s.me.step.buf ∧
  ∀ v, v ≠ s.actor → t.warp v = s.warp v

end Sys2Proof.Machine
end

