-- ==== Sys2Proof/Certificates/Slice0/Obligations.lean ====
section
/-! DEFINITION. The statements about the model, for the provers. -/
set_option autoImplicit false

open Sys2Proof Sys2Proof.Machine

/-! ### Encoding -/

/-- Decoding the encoding of a well-formed native instruction gives it back, with every operand (R36 to R46, R52). Whatever word decodes is the encoding of what it decodes to: no bit of a word is ignored (R36, R54). -/
def Obligations.DecodeOfEncode : Prop :=
  (∀ i : Instr, i.isNative = true → i.wellFormed = true → decode (encode i) = .ok i) ∧
  (∀ (w : DWord) (i : Instr), decode w = .ok i → i.isNative = true ∧ i.wellFormed = true ∧ encode i = w)

/-- Words written out field by field from the spec's worked encodings decode to the instructions they stand for. -/
def Obligations.WorkedWordsDecode : Prop :=
  decode 0x40E03801451E0818#64 = .ok (.vfma ⟨true, false, 7, .vec 1, .scal 40, .fc 2, .all, .rtz, .f32⟩) ∧
  decode 0x336FB204EF780800#64 = .ok (.scmp ⟨true, false, 502, .scal 4, .nlit 123, .lit 2, .all, .rne, .i32⟩) ∧
  decode 0x18E02000FFFFFFFF#64 = .ok (.vmovi ⟨true, false, 4, .vec 0, 0xFFFFFFFF#32⟩) ∧
  decode 0x0066FFFFFFF80000#64 = .ok (.bra ⟨true, .mask 2, 0xFFFFFFF8#32, .vec 0⟩)

/-! ### Memory -/

/-- Writing bytes and reading them back gives them, and every other byte is as it was. The model's own readings in it are log entry 3. -/
def Obligations.BytesReadBack : Prop :=
  ∀ (s : State) (loc : Nat) (bs : List Byte),
    (s.setBytes loc bs).bytes loc bs.length = bs ∧
    (∀ a, (a < loc ∨ loc + bs.length ≤ a) → (s.setBytes loc bs).byte a = s.byte a) ∧
    (s.memOk → (s.setBytes loc bs).memOk)

/-- Every step keeps memory in its canonical form. -/
def Obligations.StepKeepsMemoryCanonical : Prop :=
  ∀ s t : State, s.memOk → step s = .next t → t.memOk

/-! ### The end of an operation and of a step (R25, R26, R27, R34) -/

/-- An operation with E = 0 shifts its result into b0, b0 to b1, b1 to b2, b2 to b3, adds its writes to the buffer, and changes no register and no byte (R25, R26). The operation with E = 1 commits the step: the buffered writes in
operation order, the later one of two to one register standing; FLAGS gains the raised conditions, STEPS counts, the lanes of the issue set go to the step's end or a branch's target; no other warp and no byte changes, and of the
rest of the machine only the counters of gangs and the users of loop buffers (R26, R27, R34). -/
def Obligations.OperationEnds : Prop :=
  (∀ (s : State) (res : Option Lanes) (buf : List Buf) (conds : List Cond),
     let t := s.finish false res buf conds
     t.me.step.latches.head? = some res ∧
     (∀ k, k < 3 → t.me.step.latches[k + 1]? = s.me.step.latches[k]?) ∧
     t.me.step.buf = s.me.step.buf ++ buf ∧ t.me.step.ops = s.me.step.ops.tail ∧
     t.me.regs = s.me.regs ∧ t.me.sp = s.me.sp ∧ s.sameBytes t ∧ (∀ v, v ≠ s.actor → t.warp v = s.warp v)) ∧
  (∀ (s : State) (res : Option Lanes) (buf : List Buf) (conds : List Cond),
     s.atRest → (s.me.step.buf ++ buf).all Buf.isWrite = true →
     (∀ c ∈ s.me.step.conds ++ conds, s.me.sp.fpctl.getLsbD c.bit = false) →
     let t := s.finish true res buf conds
     let w := s.me
     let bs := w.step.buf ++ buf
     (∀ r l, l < 32 → (t.warp s.actor).vword r l = (lastVec bs r l).getD (w.vword r l)) ∧
     (∀ r, (t.warp s.actor).sword r = (lastScal bs r).getD (w.sword r)) ∧
     (t.warp s.actor).sp =
       { (w.setVpc w.step.issue (fun l => w.step.nexts.getD l (w.step.first + BitVec.ofNat 32 w.step.len))).sp with
         flags := w.sp.flags ||| BitVec.ofNat 32 (condBits (w.step.conds ++ conds)), steps := w.sp.steps + 1 } ∧
     (t.warp s.actor).step = {} ∧ (t.warp s.actor).mode = w.mode ∧ (t.warp s.actor).held = w.held ∧ (t.warp s.actor).exited = w.exited ∧
     s.onlyWarp t ∧ s.sameBytes t)

/-! ### Operands (R51, R47, R50) -/

/-- What each kind of source supplies in a lane, for 32-bit types and for pairs: registers as they stood before the step, latches, the launch's constants, and integer literals (R46, R47, R51). -/
def Obligations.SourceKinds : Prop :=
  ∀ (s : State) (l : Nat),
    (∀ n : BitVec 8, s.src .n32 (.vec n) l = (s.me.vword n.toNat l).toNat ∧
      s.src .n64 (.vec n) l = (s.me.vword n.toNat l).toNat + 2 ^ 32 * (s.me.vword (n.toNat + 1) l).toNat) ∧
    (∀ n : BitVec 9, s.src .n32 (.scal n) l = (s.me.sword n.toNat).toNat ∧
      s.src .n64 (.scal n) l = (s.me.sword n.toNat).toNat + 2 ^ 32 * (s.me.sword (n.toNat + 1)).toNat) ∧
    (∀ (k : BitVec 2) (v : Lanes), s.me.step.latches[k.toNat]? = some (some v) → s.src .n32 (.latch k) l = (v.at l).toNat) ∧
    (∀ (b : BitVec 2) (k : BitVec 7), s.src .n32 (.const b k) l =
      ((s.launch (s.gangOf s.me).launch).consts.get (128 * b.toNat + k.toNat)).toNat) ∧
    (∀ n : BitVec 8, s.src .i32 (.lit n) l = n.toNat ∧ s.src .i64 (.lit n) l = n.toNat ∧
      s.src .i16x2 (.lit n) l = n.toNat * 0x10001 ∧ s.src .i8x4 (.lit n) l = n.toNat * 0x1010101) ∧
    (∀ n : BitVec 7, (BitVec.ofNat 32 (s.src .i32 (.nlit n) l)).toInt = (n.toNat : Int) - 128 ∧
      (BitVec.ofNat 64 (s.src .i64 (.nlit n) l)).toInt = (n.toNat : Int) - 128)

/-! ### Integer instructions (R106 to R119) -/

/-- The table instructions of R111 and R114: element k of D is the exact result of the row kept in the element's width, no flag is raised, and the instruction completes on every readable operand. VDIV truncates toward zero and
VREM takes the sign of the dividend; a zero divisor gives all ones, or the dividend, and raises INT_DIV_ZERO; the most negative value divided by -1 gives the dividend and remainder 0 (R113). -/
def Obligations.IntegerVectorResults : Prop :=
  (∀ p ∈ integerRows, ∀ (o : NOp) (s : State), (p.1 o).wellFormed = true → s.readable (p.1 o) o.g →
     vectorResult (p.1 o) o s o.ty.is64 (fun l x fl => fl = 0 ∧
       x = packed o.ty (fun k => keep o.ty.bits (p.2 o.ty.bits (s.element o.ty o.s0 l k) (s.element o.ty o.s1 l k) (s.element o.ty o.s2 l k))))) ∧
  (∀ (o : NOp) (s : State) (rem : Bool),
     let i := if rem then Instr.vrem o else Instr.vdiv o
     i.wellFormed = true → s.readable i o.g →
     vectorResult i o s o.ty.is64 (fun l x fl =>
       let a (k : Nat) := s.element o.ty o.s0 l k
       let b (k : Nat) := s.element o.ty o.s1 l k
       fl = joined o.ty (fun k => if b k = 0 then fINT_DIV_ZERO else 0) ∧
       x = packed o.ty (fun k => keep o.ty.bits
         (if b k = 0 then (if rem then a k else -1) else if rem then a k - b k * Int.tdiv (a k) (b k) else Int.tdiv (a k) (b k)))))

/-- VADDC and VSUBB: the sum or difference with the carry of the pre-step mask, the carry out merged into the mask of S2 in the same commit, also when V = 1; where no lane executes nothing is written (R107, R112). What the other
lanes' bits become, and an absent lane's, is log entry 13. -/
def Obligations.CarryChains : Prop :=
  ∀ (o : NOp) (s : State) (sub : Bool) (k : BitVec 9),
    let i := if sub then Instr.vsubb o else Instr.vaddc o
    let m := s.me.execSet o.g
    i.wellFormed = true → o.s2 = .scal k → s.readable i o.g →
    ∃ (x : Nat → Nat) (mk : Word),
      (∀ l, l < 32 → m.has l = true →
        let a : Int := s.src o.ty o.s0 l
        let b : Int := s.src o.ty o.s1 l
        let c : Int := if (s.me.sword k.toNat).getLsbD l then 1 else 0
        let r := if sub then a - b - c else a + b + c
        (x l : Int) = r % (2 ^ o.ty.bits : Int) ∧ (s.me.present.has l = true → (mk.getLsbD l = true ↔ (if sub then r < 0 else (2 ^ o.ty.bits : Int) ≤ r)))) ∧
      (∀ l, m.has l = false → mk.getLsbD l = ((s.me.sword k.toNat).getLsbD l && s.me.present.has l)) ∧
      exec i s = .next (s.finish o.e (some (lowWords x)) (vecWrites o.v o.d.toNat o.ty.is64 m x ++
        if m = 0#32 then [] else [s.me.maskWrite k.toNat m mk]) [])

/-- VMADW, VSAD, VSAT, VLEA: the wide product sum, the sum of absolute differences, the saturating sum with CONV_RANGE for each clamp, the scaled address (R111). VFUNNEL, VBFE, VBFI, VPERMB: the funnel shift, the clipped field
taken or put, the byte string (R114, R115, R116). -/
def Obligations.IntegerSpecialResults : Prop :=
  (∀ (o : NOp) (s : State),
     ((Instr.vmadw o).wellFormed = true → s.readable (.vmadw o) o.g → vectorResult (.vmadw o) o s true (fun l x fl => fl = 0 ∧
       x = keep 64 (s.element o.ty o.s0 l 0 * s.element o.ty o.s1 l 0 +
         readInt o.ty.signed 64 (s.src (if o.ty.signed then .i64 else .n64) o.s2 l)))) ∧
     ((Instr.vsad o).wellFormed = true → s.readable (.vsad o) o.g → vectorResult (.vsad o) o s false (fun l x fl => fl = 0 ∧
       x = ((s.src o.ty o.s2 l) + ((List.range o.ty.elems).map (fun k =>
         (s.element o.ty o.s0 l k - s.element o.ty o.s1 l k).natAbs)).sum) % 2 ^ 32)) ∧
     ((Instr.vsat o).wellFormed = true → s.readable (.vsat o) o.g → vectorResult (.vsat o) o s o.ty.is64 (fun l x fl =>
       let lo : Int := if o.ty.signed then -(2 ^ (o.ty.bits - 1) : Int) else 0
       let hi : Int := if o.ty.signed then 2 ^ (o.ty.bits - 1) - 1 else 2 ^ o.ty.bits - 1
       let r (k : Nat) : Int := if o.s2 = .lit 0 then s.element o.ty o.s0 l k + s.element o.ty o.s1 l k
         else s.element o.ty o.s0 l k - s.element o.ty o.s1 l k
       fl = joined o.ty (fun k => if r k < lo ∨ hi < r k then fCONV_RANGE else 0) ∧
       x = packed o.ty (fun k => keep o.ty.bits (max lo (min hi (r k)))))) ∧
     ((Instr.vlea o).wellFormed = true → s.readable (.vlea o) o.g → vectorResult (.vlea o) o s o.ty.is64 (fun l x fl => fl = 0 ∧
       ∃ n : BitVec 8, o.s2 = .lit n ∧ n.toNat < 8 ∧ x = (s.src o.ty o.s0 l + s.src o.ty o.s1 l * 2 ^ n.toNat) % 2 ^ o.ty.bits))) ∧
  (∀ (o : NOp) (s : State),
     ((Instr.vfunnel o).wellFormed = true → s.readable (.vfunnel o) o.g → vectorResult (.vfunnel o) o s false (fun l x fl => fl = 0 ∧
       x = (s.src o.ty o.s0 l * 2 ^ 32 + s.src o.ty o.s1 l) / 2 ^ (s.src o.ty o.s2 l % 64) % 2 ^ 32)) ∧
     ((Instr.vbfe o).wellFormed = true → s.readable (.vbfe o) o.g → vectorResult (.vbfe o) o s false (fun l x fl => fl = 0 ∧
       let c := s.src o.ty o.s1 l
       let p := min (c % 256) 32
       let n := min (c / 256 % 256) (32 - p)
       let field := s.src o.ty o.s0 l / 2 ^ p % 2 ^ n
       x = if o.ty = .i32 ∧ 0 < n ∧ 2 ^ (n - 1) ≤ field then field + (2 ^ 32 - 2 ^ n) else field)) ∧
     ((Instr.vbfi o).wellFormed = true → s.readable (.vbfi o) o.g → vectorResult (.vbfi o) o s false (fun l x fl => fl = 0 ∧
       let c := s.src o.ty o.s2 l
       let p := min (c % 256) 32
       let n := min (c / 256 % 256) (32 - p)
       ∀ j, j < 32 → x.testBit j = if p ≤ j ∧ j < p + n then (s.src o.ty o.s1 l).testBit (j - p) else (s.src o.ty o.s0 l).testBit j)) ∧
     ((Instr.vpermb o).wellFormed = true → s.readable (.vpermb o) o.g → vectorResult (.vpermb o) o s false (fun l x fl => fl = 0 ∧
       ∀ j, j < 4 → x / 2 ^ (8 * j) % 256 = permByte (s.src o.ty o.s0 l) (s.src o.ty o.s1 l) (s.src o.ty o.s2 l) j)))

/-- VCMP merges its outcome into the mask: the relation in executing lanes, the old bit in other present lanes, 0 in absent lanes; VSEL chooses by the lane's bit of a scalar; VMOVI and VADDI write the immediate word and the sum
modulo 2^32 (R107, R111, R117). The model's own readings in it are log entry 13. -/
def Obligations.CompareSelectImmediate : Prop :=
  ∀ (s : State),
    (∀ o : NOp, (Instr.vcmp o).wellFormed = true → s.readable (.vcmp o) o.g →
      ∃ mk : Word,
        (∀ l, (s.me.execSet o.g).has l = true → s.me.present.has l = true →
          (mk.getLsbD l = true ↔ comparison o.s2.ctlVal o.ty.bits (s.element o.ty o.s0 l 0) (s.element o.ty o.s1 l 0))) ∧
        (∀ l, (s.me.execSet o.g).has l = false → mk.getLsbD l = ((s.me.sword o.d.toNat).getLsbD l && s.me.present.has l)) ∧
        exec (.vcmp o) s = .next (s.finish o.e (some (Lanes.splat mk)) (if o.v || s.me.execSet o.g = 0#32 then [] else [s.me.maskWrite o.d.toNat (s.me.execSet o.g) mk]) [])) ∧
    (∀ o : NOp, (Instr.vsel o).wellFormed = true → s.readable (.vsel o) o.g →
      vectorResult (.vsel o) o s o.ty.is64 (fun l x fl => fl = 0 ∧
        x = if (s.src .n32 o.s2 l).testBit l then s.src o.ty o.s0 l else s.src o.ty o.s1 l)) ∧
    (∀ o : IOp, s.readable (.vmovi o) .all →
      ∃ x : Nat → Nat, (∀ l, x l = o.imm.toNat) ∧
        exec (.vmovi o) s = .next (s.finish o.e (some (lowWords x)) (vecWrites o.v o.d.toNat false s.me.step.issue x) [])) ∧
    (∀ o : IOp, s.readable (.vaddi o) .all →
      ∃ x : Nat → Nat, (∀ l, BitVec.ofNat 32 (x l) = s.srcW o.s0 l + o.imm) ∧
        exec (.vaddi o) s = .next (s.finish o.e (some (lowWords x)) (vecWrites o.v o.d.toNat false s.me.step.issue x) []))

/-- The scalar instructions compute the element function of their vector counterpart on warp-uniform operands, write once if a lane executes, and raise no flag (R107, R109, R118). -/
def Obligations.ScalarResults : Prop :=
  (∀ p ∈ scalarRows, ∀ (o : NOp) (s : State), (p.1 o).wellFormed = true → s.readable (p.1 o) o.g →
    scalarResult (p.1 o) o s o.ty.is64 (packed o.ty (fun k =>
      keep o.ty.bits (p.2 o.ty.bits (s.element o.ty o.s0 0 k) (s.element o.ty o.s1 0 k) (s.element o.ty o.s2 0 k))))) ∧
  (∀ (o : NOp) (s : State), (Instr.scmp o).wellFormed = true → s.readable (.scmp o) o.g →
    ∃ x, scalarResult (.scmp o) o s o.ty.is64 x ∧
      (comparison o.s2.ctlVal o.ty.bits (s.element o.ty o.s0 0 0) (s.element o.ty o.s1 0 0) → x = 2 ^ 64 - 1) ∧
      (¬ comparison o.s2.ctlVal o.ty.bits (s.element o.ty o.s0 0 0) (s.element o.ty o.s1 0 0) → x = 0)) ∧
  (∀ (o : NOp) (s : State), (Instr.ssel o).wellFormed = true → s.readable (.ssel o) o.g →
    scalarResult (.ssel o) o s o.ty.is64 (if s.src .n32 o.s2 0 = 0 then s.src o.ty o.s1 0 else s.src o.ty o.s0 0)) ∧
  (∀ (o : IOp) (s : State), s.readable (.smovi o) .all →
    exec (.smovi o) s = .next (s.finish o.e (some (Lanes.splat o.imm)) (scalWrites o.v o.d.toNat false s.me.step.issue o.imm.toNat) [])) ∧
  (∀ (o : IOp) (s : State), s.readable (.saddi o) .all →
    exec (.saddi o) s = .next (s.finish o.e (some (Lanes.splat (s.srcW o.s0 0 + o.imm)))
      (scalWrites o.v o.d.toNat false s.me.step.issue (s.srcW o.s0 0 + o.imm).toNat) []))

/-! ### Floating instructions (R98, R99, R120 to R130) -/

/-- Rounding to an integer magnitude: RTZ the floor, RUP and RDN the neighbour on their side, RNE the nearest, a tie to the even one (R98). A finite value that a format holds is delivered as it stands by every rounding mode,
without a flag (R99). The special cases of the exact operations: a cancelled sum is +0 and -0 under RDN, like zeros keep their sign; 0 times an infinity, opposite infinities, 0/0 and the square root of a value below -0 are
invalid; a nonzero value over zero is an infinity with DIV_ZERO. Sums, products and sums of products of finite values are exact as rational numbers, a product has the product's sign, and a square root is the root to 140 bits
(R102, R121, R125, R135). The root's bits are log entry 16. -/
def Obligations.RoundingAndSpecialCases : Prop :=
  (∀ (neg : Bool) (n d : Nat), 0 < d →
     (roundMag .rtz neg n d * d ≤ n ∧ n < (roundMag .rtz neg n d + 1) * d) ∧
     (roundMag .rup false n d * d < n + d ∧ n ≤ roundMag .rup false n d * d) ∧
     (roundMag .rup true n d * d ≤ n ∧ n < (roundMag .rup true n d + 1) * d) ∧
     (roundMag .rdn true n d * d < n + d ∧ n ≤ roundMag .rdn true n d * d) ∧
     (roundMag .rdn false n d * d ≤ n ∧ n < (roundMag .rdn false n d + 1) * d) ∧
     (2 * n ≤ (2 * roundMag .rne neg n d + 1) * d ∧ 2 * roundMag .rne neg n d * d ≤ 2 * n + d) ∧
     ((2 * n = (2 * roundMag .rne neg n d + 1) * d ∨ 2 * roundMag .rne neg n d * d = 2 * n + d) → roundMag .rne neg n d % 2 = 0)) ∧
  (∀ f ∈ [Fmt.f16, Fmt.bf16, Fmt.f32, Fmt.f64, Fmt.f32e], ∀ (m : Rnd) (sat : Bool) (c : Nat),
     c < 2 * f.signWeight → (∃ s n d, decodeVal f c = .fin s n d) → round f m sat (decodeVal f c) = (c, 0)) ∧
  (∀ (m : Rnd) (s t : Bool) (n d k e : Nat), 0 < d → 0 < e →
     (0 < n → ∃ d', xadd m (.fin s n d) (.fin (!s) n d) = (.fin (m == .rdn) 0 d', 0)) ∧
     (∃ d', xadd m (.fin s 0 d) (.fin s 0 e) = (.fin s 0 d', 0)) ∧
     xadd m (.inf s) (.inf (!s)) = (.nan false, fINVALID) ∧ xadd m (.inf s) (.inf s) = (.inf s, 0) ∧
     xmul (.fin s 0 d) (.inf t) = (.nan false, fINVALID) ∧ (0 < n → xmul (.fin s n d) (.inf t) = (.inf (s != t), 0)) ∧
     xdiv (.fin s 0 d) (.fin t 0 e) = (.nan false, fINVALID) ∧ (0 < n → xdiv (.fin s n d) (.fin t 0 e) = (.inf (s != t), fDIV_ZERO)) ∧
     xdiv (.inf s) (.inf t) = (.nan false, fINVALID) ∧
     (0 < n → gSqrt m (.fin true n d) (.inf s) (.inf s) = (.nan false, fINVALID)) ∧
     (∃ d', gSqrt m (.fin true 0 d) (.inf s) (.inf s) = (.fin true 0 d', 0)) ∧
     (0 < k → 0 < n → ∃ n' d', xdiv (.fin s n d) (.fin t k e) = (.fin (s != t) n' d', 0) ∧ n' * (d * k) = n * e * d') ∧
     (0 < n → ∃ p q, gSqrt m (.fin false n d) (.inf s) (.inf s) = (.fin false p q, 0) ∧ isRoot n d p q) ∧
     (∀ x y : XReal, x.finite → y.finite →
       ((xadd m x y).2 = 0 ∧ (xadd m x y).1.finite ∧ (xadd m x y).1.rat = x.rat + y.rat) ∧
       ((xmul x y).2 = 0 ∧ (xmul x y).1.finite ∧ (xmul x y).1.rat = x.rat * y.rat ∧ (xmul x y).1.signBit = (x.signBit != y.signBit))) ∧
     (∀ (ps : List (XReal × XReal)) (cs : List XReal), (∀ p ∈ ps, p.1.finite ∧ p.2.finite) → (∀ c ∈ cs, c.finite) →
       (xdot m ps cs).2 = 0 ∧ (xdot m ps cs).1.finite ∧
       (xdot m ps cs).1.rat = (ps.map (fun p => p.1.rat * p.2.rat)).sum + (cs.map XReal.rat).sum))

/-- VFADD, VFSUB, VFMUL, VFMA, VFDIV, VFSQRT and VFRND round the exact value of each element once, raise the flags of that rounding, of the special cases of R102 and of a signalling NaN, and complete on every readable operand
(R120, R123, R125, R126). -/
def Obligations.FloatingArithmetic : Prop :=
  ∀ p ∈ floatRows, ∀ (o : NOp) (s : State), (p.1 o).wellFormed = true → s.readable (p.1 o) o.g →
    vectorResult (p.1 o) o s o.ty.is64 (fun l x fl =>
      let a := s.felement o.ty o.s0 l
      let b := s.felement o.ty o.s1 l
      let c := s.felement o.ty o.s2 l
      x = packed o.ty (fun k => (round (Fmt.ofTy o.ty) o.rnd false (p.2.2 o.rnd (a k) (b k) (c k)).1).1) ∧
      fl = joined o.ty (fun k => sigOf p.2.1 (a k) (b k) (c k) ||| (p.2.2 o.rnd (a k) (b k) (c k)).2 |||
        (round (Fmt.ofTy o.ty) o.rnd false (p.2.2 o.rnd (a k) (b k) (c k)).1).2))

/-- VFMIN, VFMAX, VFMINN, VFMAXN by the table of R127, -0 below +0; VFABS and VFNEG edit the sign bit (R126, R127). VFCMP sets the bit when the relation of its table holds for every element, false with an unordered operand but for
NE and UNORD, and raises INVALID for a signalling NaN, for LT to GE for any NaN; VFCLASS sets exactly the bit of the element's class, of the ten of its table; VFLDEXP rounds a times 2^n once, an n beyond 4,000 in magnitude
counting as 4,000 with its sign, INVALID for a signalling NaN (R126, R128, R129). The model's own readings in it are log entries 13 and 16. -/
def Obligations.FloatingSelectAndScale : Prop :=
  (∀ (o : NOp) (s : State) (mx num : Bool),
     let i := match mx, num with
       | false, false => Instr.vfmin o
       | true, false => Instr.vfmax o
       | false, true => Instr.vfminn o
       | true, true => Instr.vfmaxn o
     let f := Fmt.ofTy o.ty
     (i.wellFormed = true → s.readable i o.g → vectorResult i o s o.ty.is64 (fun l x fl =>
       let ca (k : Nat) := elemNat o.ty.bits k (s.src o.ty o.s0 l)
       let cb (k : Nat) := elemNat o.ty.bits k (s.src o.ty o.s1 l)
       let a := s.felement o.ty o.s0 l
       let b := s.felement o.ty o.s1 l
       let less (u v : XReal) : Bool := u.lt v || (u.isZero && v.isZero && u.signBit && !v.signBit)
       fl = joined o.ty (fun k => sigOf 2 (a k) (b k) (a k)) ∧
       ∃ c : Nat → Nat, x = packed o.ty c ∧ ∀ k, k < o.ty.elems →
         (((a k).isNan = true ∧ (b k).isNan = true) → c k = f.defaultNan) ∧
         (((a k).isNan = true ∧ (b k).isNan = false) → c k = if num then cb k else f.defaultNan) ∧
         (((a k).isNan = false ∧ (b k).isNan = true) → c k = if num then ca k else f.defaultNan) ∧
         (((a k).isNan = false ∧ (b k).isNan = false) →
           (less (a k) (b k) = true → c k = if mx then cb k else ca k) ∧ (less (b k) (a k) = true → c k = if mx then ca k else cb k) ∧
           (c k = ca k ∨ c k = cb k)))) ∧
     ((Instr.vfabs o).wellFormed = true → s.readable (.vfabs o) o.g → vectorResult (.vfabs o) o s o.ty.is64 (fun l x fl => fl = 0 ∧
       x = packed o.ty (fun k => elemNat o.ty.bits k (s.src o.ty o.s0 l) % f.signWeight))) ∧
     ((Instr.vfneg o).wellFormed = true → s.readable (.vfneg o) o.g → vectorResult (.vfneg o) o s o.ty.is64 (fun l x fl => fl = 0 ∧
       x = packed o.ty (fun k => (elemNat o.ty.bits k (s.src o.ty o.s0 l) + f.signWeight) % (2 * f.signWeight))))) ∧
  (∀ (o : NOp) (s : State),
     let rel (l k : Nat) : Prop := floatRelation o.s2.ctlVal (s.felement o.ty o.s0 l k) (s.felement o.ty o.s1 l k)
     let bad (l k : Nat) : Nat := floatRelationFlags o.s2.ctlVal (s.felement o.ty o.s0 l k) (s.felement o.ty o.s1 l k)
     ((Instr.vfcmp o).wellFormed = true → s.readable (.vfcmp o) o.g →
       ∃ mk : Word,
         (∀ l, (s.me.execSet o.g).has l = true → s.me.present.has l = true → (mk.getLsbD l = true ↔ ∀ k, k < o.ty.elems → rel l k)) ∧
         (∀ l, (s.me.execSet o.g).has l = false → mk.getLsbD l = ((s.me.sword o.d.toNat).getLsbD l && s.me.present.has l)) ∧
         exec (.vfcmp o) s = .next (s.finish o.e (some (Lanes.splat mk)) (if o.v || s.me.execSet o.g = 0#32 then [] else [s.me.maskWrite o.d.toNat (s.me.execSet o.g) mk])
           (condsOf s.me.step.idx (s.me.execSet o.g) (fun l => joined o.ty (bad l))))) ∧
     ((Instr.vfclass o).wellFormed = true → s.readable (.vfclass o) o.g → vectorResult (.vfclass o) o s false (fun l x fl => fl = 0 ∧
       let f := Fmt.ofTy o.ty
       let e (k : Nat) := s.felement o.ty o.s0 l k
       let low (k : Nat) : Bool := elemNat o.ty.bits k (s.src o.ty o.s0 l) / 2 ^ f.tbits % 2 ^ f.ebits == 0
       x = (List.range o.ty.elems).foldl (fun acc k => acc + 2 ^ floatClass (e k) (low k) * 2 ^ (16 * k)) 0)) ∧
     ((Instr.vfldexp o).wellFormed = true → s.readable (.vfldexp o) o.g → vectorResult (.vfldexp o) o s o.ty.is64 (fun l x fl =>
       let v (k : Nat) : XReal := (s.felement o.ty o.s0 l k).scale (max (-4000) (min 4000 (s.srcW o.s1 l).toInt))
       x = packed o.ty (fun k => (round (Fmt.ofTy o.ty) o.rnd false (v k)).1) ∧
       fl = joined o.ty (fun k => sigOf 1 (s.felement o.ty o.s0 l k) (s.felement o.ty o.s0 l k) (s.felement o.ty o.s0 l k) |||
         (round (Fmt.ofTy o.ty) o.rnd false (v k)).2))))

/-- The approximate functions: the correctly rounded value for packed elements and in the exact and special cases; else, under f32, a value within the bound of R130, or the nearest one, with INEXACT, and UNDERFLOW below 2^-126.
Zeros, infinities and negative operands give the results and flags of the table, a sine of a half turn and a cosine of a quarter turn a zero with its sign; the reciprocal is the exact quotient, the reciprocal root the root of it
to 140 bits, a whole power and logarithm exact (R130). The value within the bound is the model's free value (log entry 6); the ordinary values that are rounded are series to 320 bits (log entry 16). -/
def Obligations.ApproximateFunctions : Prop :=
  (∀ (s : Bool) (n d : Nat), 0 < n → 0 < d →
    rcpVal (.fin s 0 d) = { x := .inf s, fl := fDIV_ZERO } ∧ rcpVal (.inf s) = { x := .fin s 0 1 } ∧
    rsqVal (.fin s 0 d) = { x := .inf s, fl := fDIV_ZERO } ∧ rsqVal (.inf false) = { x := .fin false 0 1 } ∧
    rsqVal (.fin true n d) = { x := .nan false, fl := fINVALID } ∧ rsqVal (.inf true) = { x := .nan false, fl := fINVALID } ∧
    exp2Val (.inf true) = { x := .fin false 0 1 } ∧ exp2Val (.inf false) = { x := .inf false } ∧
    log2Val (.fin s 0 d) = { x := .inf true, fl := fDIV_ZERO } ∧ log2Val (.inf false) = { x := .inf false } ∧
    log2Val (.fin true n d) = { x := .nan false, fl := fINVALID } ∧ log2Val (.inf true) = { x := .nan false, fl := fINVALID } ∧
    sinVal (.inf s) = { x := .nan false, fl := fINVALID } ∧ cosVal (.inf s) = { x := .nan false, fl := fINVALID } ∧
    (2 * n % d = 0 → sinVal (.fin s n d) = { x := .fin s 0 1 }) ∧
    (4 * n % d = 0 → 4 * n / d % 2 = 1 → cosVal (.fin s n d) = { x := .fin false 0 1 }) ∧
    (rcpVal (.fin s n d)).x = .fin s d n ∧ (rcpVal (.fin s n d)).fl = 0 ∧
    (∃ p q, (rsqVal (.fin false n d)).x = .fin false p q ∧ isRoot d n p q) ∧ (rsqVal (.fin false n d)).fl = 0 ∧
    (n ≤ 4096 → exp2Val (.fin s n 1) = { x := (XReal.fin false 1 1).scale (if s then -(n : Int) else n) }) ∧
    log2Val (.fin false (2 ^ n) 1) = { x := XReal.ofInt n } ∧ log2Val (.fin false 1 (2 ^ n)) = { x := XReal.ofInt (-(n : Int)) }) ∧
  ∀ p ∈ [(Instr.vfrcp, Approx.rcp), (Instr.vfrsq, Approx.rsq), (Instr.vfexp2, Approx.exp2), (Instr.vflog2, Approx.log2), (Instr.vfsin, Approx.sin),
      (Instr.vfcos, Approx.cos)], ∀ (o : NOp) (s : State),
    (p.1 o).wellFormed = true → s.readable (p.1 o) o.g →
    vectorResult (p.1 o) o s o.ty.is64 (fun l x fl =>
      ∃ c g : Nat → Nat, x = packed o.ty c ∧ fl = joined o.ty g ∧ ∀ k, k < o.ty.elems →
        let a := s.felement o.ty o.s0 l k
        let v := p.2.val a
        let r := round (Fmt.ofTy o.ty) .rne false v.x
        ((o.ty ≠ .f32 ∨ v.exact = true ∨ Nat.land r.2 fOVERFLOW ≠ 0) → c k = r.1 ∧ g k = v.fl ||| r.2) ∧
        ((o.ty = .f32 ∧ v.exact = false ∧ Nat.land r.2 fOVERFLOW = 0) →
          (p.2.within a v.x (decodeVal .f32 (c k)) = true ∨ c k = r.1) ∧ 
          g k = if (decodeVal .f32 (c k)).abs.lt ((XReal.fin false 1 1).scale (-126)) = true then fINEXACT ||| fUNDERFLOW else fINEXACT))

/-! ### Conversions and dot products (R131 to R135) -/

/-- VCVT between real formats rounds the value of the source code, or keeps or saturates it between integers; a complex pair converts part by part (R101, R131). One converted value: rounding by R99 with INVALID for a signalling
NaN; between integers the low bits, or the clamped value with CONV_RANGE (R100, R101). -/
def Obligations.Conversions : Prop :=
  (∀ (o : NOp) (s : State) (dc sc : BitVec 6),
     (Instr.vcvt o).wellFormed = true → s.readable (.vcvt o) o.g → dc = BitVec.ofNat 6 o.s1.ctlVal → sc = BitVec.ofNat 6 o.s2.ctlVal →
     vectorResult (.vcvt o) o s (fmtBits dc == 64) (fun l x fl =>
       ∃ v : Nat, ((∀ k, o.s0 ≠ .fc k) → v = s.src (if fmtBits sc = 64 then .n64 else .n32) o.s0 l) ∧
         (∀ k, o.s0 = .fc k → v = fconst (Fmt.ofCode sc) k.toNat) ∧
         let sat := o.s1.ctlVal / 64 % 2 == 1
         let w := (Fmt.ofCode sc).width
         let one (u : Nat) : Flagged := convert (Fmt.ofCode dc) (Fmt.ofCode sc) o.rnd sat u
         (fmtIsComplex dc = false → x = (one (v % 2 ^ w)).1 ∧ fl = (one (v % 2 ^ w)).2) ∧
         (fmtIsComplex dc = true → x = (one (v % 2 ^ w)).1 + (one (v / 2 ^ w % 2 ^ w)).1 * 2 ^ (Fmt.ofCode dc).width ∧
           fl = (one (v % 2 ^ w)).2 ||| (one (v / 2 ^ w % 2 ^ w)).2))) ∧
  (∀ (df sf : Fmt) (m : Rnd) (sat : Bool) (c : Nat),
     ((df.isInt = false ∨ sf.isInt = false) →
       convert df sf m sat c = ((round df m sat (decodeVal sf c)).1,
         (round df m sat (decodeVal sf c)).2 ||| if (decodeVal sf c).isSig then fINVALID else 0)) ∧
     (∀ ds db ss sb, df = .int ds db → sf = .int ss sb → 0 < db → 0 < sb →
       let z : Int := if ss = true ∧ 2 ^ (sb - 1) ≤ c % 2 ^ sb then (c % 2 ^ sb : Int) - 2 ^ sb else c % 2 ^ sb
       let lo : Int := if ds then -(2 ^ (db - 1) : Int) else 0
       let hi : Int := if ds then 2 ^ (db - 1) - 1 else 2 ^ db - 1
       (sat = false → convert df sf m sat c = (keep db z, 0)) ∧
       (sat = true → convert df sf m sat c = (keep db (max lo (min hi z)), if z < lo ∨ hi < z then fCONV_RANGE else 0))))

/-- VPK8 and VUPK8 with an allowed control word: each packed byte is the rounded quotient by the block scale and the other bytes of D stand; unpacking gives the rounded product; a NaN scale raises SCALE_NAN and gives NaNs; a zero
scale gives zeros, and NaN for a NaN or an infinity, which raises INVALID. A control word that is not allowed faults with ILLEGAL_OP (R132, R133, R134). The model's own readings in it are log entry 14. -/
def Obligations.BlockScaledPacking : Prop :=
  ∀ (o : NOp) (s : State),
    let p := PackCtl.of (s.srcW o.s2 0) o.ty
    let f := Fmt.ofCode p.fmt
    let bad : Prop := fmtIsB8 p.fmt = false ∨ (s.srcW o.s2 0).getLsbD 7 = true ∨ (o.ty ≠ .f32 ∧ 2 ≤ p.sel)
    ((Instr.vpk8 o).wellFormed = true → s.readable (.vpk8 o) o.g →
      (bad → exec (.vpk8 o) s = .next s.illegal) ∧
      (¬ bad → vectorResult (.vpk8 o) o s false (fun l x fl =>
        let c := s.src .n32 o.s1 l / 2 ^ (8 * p.sbyte) % 256
        let j (k : Nat) := if o.ty = .f32 then p.sel else 2 * p.sel + k
        let r (k : Nat) := round f o.rnd p.sat ((s.felement o.ty o.s0 l k).scale (128 - (c : Int)))
        (∀ b, b < 4 → (∀ k, k < o.ty.elems → b ≠ j k) → x / 2 ^ (8 * b) % 256 = (s.me.vword o.d.toNat l).toNat / 2 ^ (8 * b) % 256) ∧
        (∀ k, k < o.ty.elems →
          (c = 255 → x / 2 ^ (8 * j k) % 256 = f.defaultNan ∧ fl = fSCALE_NAN) ∧
          (c = 0 → x / 2 ^ (8 * j k) % 256 = 0 ∧ fl = 0) ∧
          (0 < c → c < 255 → x / 2 ^ (8 * j k) % 256 = (r k).1 % 256)) ∧
        (0 < c → c < 255 → fl = joined o.ty (fun k => (r k).2 ||| sigOf 1 (s.felement o.ty o.s0 l k) (s.felement o.ty o.s0 l k) (s.felement o.ty o.s0 l k)))))) ∧
    ((Instr.vupk8 o).wellFormed = true → s.readable (.vupk8 o) o.g →
      (bad → exec (.vupk8 o) s = .next s.illegal) ∧
      (¬ bad → vectorResult (.vupk8 o) o s false (fun l x fl =>
        let c := s.src .n32 o.s1 l / 2 ^ (8 * p.sbyte) % 256
        let e (k : Nat) := decodeVal f (s.src o.ty o.s0 l / 2 ^ (8 * (if o.ty = .f32 then p.sel else 2 * p.sel + k)) % 256)
        let fm := Fmt.ofTy o.ty
        (c = 255 → x = packed o.ty (fun _ => fm.defaultNan) ∧ fl = fSCALE_NAN) ∧
        (0 < c → c < 255 → x = packed o.ty (fun k => (round fm o.rnd p.sat ((e k).scale ((c : Int) - 128))).1) ∧
          fl = joined o.ty (fun k => (round fm o.rnd p.sat ((e k).scale ((c : Int) - 128))).2)) ∧
        (c = 0 → fl = joined o.ty (fun k => if (e k).isInf then fINVALID else 0) ∧ ∃ z : Nat → Nat, x = packed o.ty z ∧ ∀ k, k < o.ty.elems →
          ((e k).isNan = true → z k = fm.defaultNan) ∧ (∀ b, e k = .inf b → z k = fm.defaultNan) ∧
          (∀ b n d, e k = .fin b n d → z k = if b then fm.signWeight else 0)))))

/-- VFDOT2 and VFDOT4 sum their exact products and the addend and round once; the integer forms keep the exact sum in 32 bits. A NaN term gives the default NaN; 0 times an infinity, opposite infinities among the terms, and a
signalling NaN raise INVALID (R135). -/
def Obligations.DotProducts : Prop :=
  ∀ (o : NOp) (s : State),
    ((Instr.vfdot2 o).wellFormed = true → s.readable (.vfdot2 o) o.g → vectorResult (.vfdot2 o) o s false (fun l x fl =>
      let a := s.felement o.ty o.s0 l
      let b := s.felement o.ty o.s1 l
      let c := decodeVal .f32 (s.src .f32 o.s2 l)
      let r := xdot o.rnd [(a 0, b 0), (a 1, b 1)] [c]
      x = (round .f32 o.rnd false r.1).1 ∧
      fl = (round .f32 o.rnd false r.1).2 ||| r.2 ||| (if [a 0, a 1, b 0, b 1, c].any XReal.isSig then fINVALID else 0))) ∧
    ((Instr.vfdot4 o).wellFormed = true → s.readable (.vfdot4 o) o.g → o.ty.isInt = true → vectorResult (.vfdot4 o) o s false (fun l x fl => fl = 0 ∧
      x = keep 32 ((s.me.vword o.d.toNat l).toNat + ((List.range 4).map (fun k =>
        readInt o.ty.signed 8 (elemNat 8 k (s.src o.ty o.s0 l)) * readInt o.ty.signed 8 (elemNat 8 k (s.src o.ty o.s1 l)))).sum))) ∧
    ((Instr.vfdot4 o).wellFormed = true → s.readable (.vfdot4 o) o.g → o.ty.isInt = false → vectorResult (.vfdot4 o) o s false (fun l x fl =>
      let f := Fmt.ofCode (BitVec.ofNat 6 o.s2.ctlVal)
      let a (k : Nat) := decodeVal f (elemNat 8 k (s.src o.ty o.s0 l))
      let b (k : Nat) := decodeVal f (elemNat 8 k (s.src o.ty o.s1 l))
      let c := decodeVal .f32 (s.me.vword o.d.toNat l).toNat
      let r := xdot o.rnd [(a 0, b 0), (a 1, b 1), (a 2, b 2), (a 3, b 3)] [c]
      x = (round .f32 o.rnd false r.1).1 ∧
      fl = (round .f32 o.rnd false r.1).2 ||| r.2 ||| (if [a 0, a 1, a 2, a 3, b 0, b 1, b 2, b 3, c].any XReal.isSig then fINVALID else 0)))

/-! ### Complex, signal and cross-lane instructions (R136 to R145) -/

/-- VCMUL, VCFMA, VCABS2 and VCCONJ: each part is one rounding of the exact expression of R137, with its flags; VCCONJ inverts the sign bit of the imaginary part (R137). The model's own readings in it are log entry 15. VTWID
rounds cos and minus sin of k'/2^m' turns, part by part, with the flags of the two roundings; at quarter turns the parts are exactly 0 and 1 with the signs of R140, and nothing is raised (R140). The other values are the model's
series (log entry 16). -/
def Obligations.ComplexArithmetic : Prop :=
  (∀ (o : NOp) (s : State),
     let a (l : Nat) := cparts o.ty (s.src o.ty o.s0 l)
     let b (l : Nat) := cparts o.ty (s.src o.ty o.s1 l)
     let c (l : Nat) := cparts o.ty (s.src o.ty o.s2 l)
     ((Instr.vcmul o).wellFormed = true → s.readable (.vcmul o) o.g → vectorResult (.vcmul o) o s o.ty.is64 (fun l x fl =>
       let r := cround o.ty o.rnd (cprodRe (a l) (b l)) (cprodIm (a l) (b l))
       x = r.1 ∧ fl = cprodFlags (a l) (b l) ||| r.2)) ∧
     ((Instr.vcfma o).wellFormed = true → s.readable (.vcfma o) o.g → vectorResult (.vcfma o) o s o.ty.is64 (fun l x fl =>
       let r := cround o.ty o.rnd (cprodRe (a l) (b l) ++ [(c l).1]) (cprodIm (a l) (b l) ++ [(c l).2])
       x = r.1 ∧ fl = cprodFlags (a l) (b l) ||| sigOf 2 (c l).1 (c l).2 (c l).1 ||| r.2)) ∧
     ((Instr.vcabs2 o).wellFormed = true → s.readable (.vcabs2 o) o.g → vectorResult (.vcabs2 o) o s o.ty.is64 (fun l x fl =>
       let p := xmul (a l).1 (a l).1
       let q := xmul (a l).2 (a l).2
       let r := cround o.ty o.rnd [p.1, q.1] [.fin false 0 1]
       x = r.1 ∧ fl = sigOf 2 (a l).1 (a l).2 (a l).1 ||| p.2 ||| q.2 ||| r.2)) ∧
     ((Instr.vcconj o).wellFormed = true → s.readable (.vcconj o) o.g → vectorResult (.vcconj o) o s o.ty.is64 (fun l x fl => fl = 0 ∧
       x = (s.src o.ty o.s0 l + 2 ^ (o.ty.bits - 1)) % 2 ^ o.ty.bits))) ∧
  (∀ (o : NOp) (s : State), (Instr.vtwid o).wellFormed = true → s.readable (.vtwid o) o.g →
     vectorResult (.vtwid o) o s o.ty.is64 (fun l x fl =>
       let e := s.src .n32 o.s1 l % 32
       let k := s.src .n32 o.s0 l % 2 ^ e
       let one := (round (partFmt o.ty) o.rnd false (.fin false 1 1)).1
       let sw := (partFmt o.ty).signWeight
       let h := 2 ^ (o.ty.bits / 2)
       let re := round (partFmt o.ty) o.rnd false (turnVals k (2 ^ e)).1.x
       let im := round (partFmt o.ty) o.rnd false (turnVals k (2 ^ e)).2.x.neg
       x = re.1 + im.1 * h ∧ fl = re.2 ||| im.2 ∧ (4 * k % 2 ^ e = 0 → fl = 0) ∧
       (k = 0 → x = one + sw * h) ∧
       (4 * k = 2 ^ e → x = (one + sw) * h) ∧
       (2 * k = 2 ^ e → x = one + sw + sw * h) ∧
       (4 * k = 3 * 2 ^ e → x = one * h)))

/-- VBFLY2 and VBFLY4: every part of every output is one rounding of its exact sum of terms, with the flags of the products, sums and roundings; all sources are read before the step (R137, R138, R139). The model's own readings in
it are log entry 15. -/
def Obligations.Butterflies : Prop :=
  ∀ (o : NOp) (s : State),
    let m := s.me.execSet o.g
    ((Instr.vbfly2 o).wellFormed = true → s.readable (.vbfly2 o) o.g →
      ∃ (x0 x1 : Nat → Nat) (fl : Nat → Nat),
        (∀ l, m.has l = true →
          let a := cparts o.ty (s.src o.ty o.s0 l)
          let b := cparts o.ty (s.src o.ty o.s1 l)
          let w := cparts o.ty (s.src o.ty o.s2 l)
          let r0 := cround o.ty o.rnd (a.1 :: cprodRe w b) (a.2 :: cprodIm w b)
          let r1 := cround o.ty o.rnd (a.1 :: (cprodRe w b).map XReal.neg) (a.2 :: (cprodIm w b).map XReal.neg)
          x0 l = r0.1 ∧ x1 l = r1.1 ∧ fl l = sigOf 2 a.1 a.2 a.1 ||| cprodFlags w b ||| r0.2 ||| r1.2) ∧
        exec (.vbfly2 o) s = .next (s.finish o.e (some (lowWords x0)) (groupWrites o.v o.d.toNat o.ty.is64 m [x0, x1])
          (condsOf s.me.step.idx m fl))) ∧
    ((Instr.vbfly4 o).wellFormed = true → s.readable (.vbfly4 o) o.g →
      ∃ (y0 y1 y2 y3 : Nat → Nat) (fl : Nat → Nat),
        (∀ l, m.has l = true →
          let t0 := s.cvalue o.ty o.s0 0 l
          let re (j : Nat) := cprodRe (s.cvalue o.ty o.s1 (j - 1) l) (s.cvalue o.ty o.s0 j l)
          let im (j : Nat) := cprodIm (s.cvalue o.ty o.s1 (j - 1) l) (s.cvalue o.ty o.s0 j l)
          let neg (xs : List XReal) := xs.map XReal.neg
          let inv := o.s2.ctlVal == 1
          let wre (j : Nat) := if inv then neg (im j) else im j
          let wim (j : Nat) := if inv then re j else neg (re j)
          let r0 := cround o.ty o.rnd (t0.1 :: (re 1 ++ re 2 ++ re 3)) (t0.2 :: (im 1 ++ im 2 ++ im 3))
          let r1 := cround o.ty o.rnd (t0.1 :: (wre 1 ++ neg (re 2) ++ neg (wre 3))) (t0.2 :: (wim 1 ++ neg (im 2) ++ neg (wim 3)))
          let r2 := cround o.ty o.rnd (t0.1 :: (neg (re 1) ++ re 2 ++ neg (re 3))) (t0.2 :: (neg (im 1) ++ im 2 ++ neg (im 3)))
          let r3 := cround o.ty o.rnd (t0.1 :: (neg (wre 1) ++ neg (re 2) ++ wre 3)) (t0.2 :: (neg (wim 1) ++ neg (im 2) ++ wim 3))
          let pf (j : Nat) := cprodFlags (s.cvalue o.ty o.s1 (j - 1) l) (s.cvalue o.ty o.s0 j l)
          y0 l = r0.1 ∧ y1 l = r1.1 ∧ y2 l = r2.1 ∧ y3 l = r3.1 ∧
          fl l = sigOf 2 t0.1 t0.2 t0.1 ||| pf 1 ||| pf 2 ||| pf 3 ||| r0.2 ||| r1.2 ||| r2.2 ||| r3.2) ∧
        exec (.vbfly4 o) s = .next (s.finish o.e (some (lowWords y0)) (groupWrites o.v o.d.toNat o.ty.is64 m [y0, y1, y2, y3])
          (condsOf s.me.step.idx m fl)))

/-- SLANE reads lane L of a vector, in or out of exec(), and 0 for an absent lane; VPUT writes lane L alone whenever some lane executes, and nothing for a lane that is absent or has exited (R119, R260). The model's own readings in
it are log entries 11 and 72. VSHFL and VBCAST read the register of another lane as it stood before the step, whether that lane executes or not; a lane outside the subgroup gives the lane's own value (R142, R143). VBALLOT, VMATCH
and VVOTE over the executing lanes of the subgroup (R142, R145). -/
def Obligations.LaneMovesAndVotes : Prop :=
  (∀ (o : NOp) (s : State),
     let k := s.src .n32 o.s1 0 % 32
     let m := s.me.execSet o.g
     ((Instr.slane o).wellFormed = true → s.tagRead (.slane o) = none →
       scalarResult (.slane o) o s o.ty.is64 (if s.me.present.has k then s.src o.ty o.s0 k else 0)) ∧
     ((Instr.vput o).wellFormed = true → s.readable (.vput o) o.g → m ≠ 0#32 → s.me.unexited.has k = true →
       ∃ b0 : Lanes, b0.at k = BitVec.ofNat 32 (s.src o.ty o.s0 0) ∧ exec (.vput o) s = .next (s.finish o.e (some b0)
         (vecWrites o.v o.d.toNat o.ty.is64 (Mask.single k) (fun _ => s.src o.ty o.s0 0)) [])) ∧
     ((Instr.vput o).wellFormed = true → s.readable (.vput o) o.g → (m = 0#32 ∨ s.me.unexited.has k = false) →
       ∃ b0, exec (.vput o) s = .next (s.finish o.e (some b0)
         (vecWrites o.v o.d.toNat o.ty.is64 0#32 (fun _ => s.src o.ty o.s0 0)) []))) ∧
  (∀ (o : NOp) (s : State),
     ((Instr.vshfl o).wellFormed = true → s.tagRead (.vshfl o) = none → vectorResult (.vshfl o) o s o.ty.is64 (fun l x fl => fl = 0 ∧
       let size := s.me.sgSize o.s2.ctlVal
       let n := s.src o.ty o.s1 l % 2 ^ o.ty.bits
       let j := l % size
       let mode := o.s2.ctlVal / 8 % 4
       (mode = 0 → x = s.src o.ty o.s0 (l - j + n % size)) ∧
       (mode = 1 → x = s.src o.ty o.s0 (if n ≤ j then l - n else l)) ∧
       (mode = 2 → x = s.src o.ty o.s0 (if j + n < size then l + n else l)) ∧
       (mode = 3 → x = s.src o.ty o.s0 (if j ^^^ (n % size) < size then l - j + (j ^^^ (n % size)) else l)))) ∧
     ((Instr.vbcast o).wellFormed = true → s.tagRead (.vbcast o) = none → vectorResult (.vbcast o) o s o.ty.is64 (fun l x fl => fl = 0 ∧
       let size := s.me.sgSize o.s1.ctlVal
       x = s.src o.ty o.s0 (l - l % size + s.src .n32 o.s2 0 % 32 % size)))) ∧
  (∀ (o : NOp) (s : State),
     let m := s.me.execSet o.g
     let size := s.me.sgSize o.s2.ctlVal
     let mine (l j : Nat) : Prop := j < 32 ∧ m.has j = true ∧ j / size = l / size
     let a (j : Nat) := s.src o.ty o.s0 j
     ((Instr.vballot o).wellFormed = true → s.readable (.vballot o) o.g → vectorResult (.vballot o) o s false (fun l x fl => fl = 0 ∧ x < 2 ^ 32 ∧
       ∀ j, x.testBit j = true ↔ mine l j ∧ a j ≠ 0)) ∧
     ((Instr.vmatch o).wellFormed = true → s.readable (.vmatch o) o.g → vectorResult (.vmatch o) o s false (fun l x fl => fl = 0 ∧ x < 2 ^ 32 ∧
       ∀ j, x.testBit j = true ↔ mine l j ∧ a j = a l)) ∧
     ((Instr.vvote o).wellFormed = true → s.readable (.vvote o) o.g → vectorResult (.vvote o) o s false (fun l x fl => fl = 0 ∧
       let kind := o.s2.ctlVal / 8 % 4
       let truth := (kind = 0 ∧ ∀ j, mine l j → a j ≠ 0) ∨ (kind = 1 ∧ ∃ j, mine l j ∧ a j ≠ 0) ∨ (kind = 2 ∧ ∀ i j, mine l i → mine l j → a i = a j)
       (truth → x = 0xFFFFFFFF) ∧ (¬ truth → x = 0))))

/-- VREDUCE gives every executing lane of a subgroup the root of the fixed tree over the subgroup's executing lanes, with every flag of the tree; VSCAN gives the left-to-right fold up to the lane, or up to it excluded with the
identity first, and the flags of every fold step of the subgroup (R142, R144). -/
def Obligations.ReduceScan : Prop :=
  ∀ (o : NOp) (s : State), 
    let m := s.me.execSet o.g
    let ctl := o.s2.ctlVal
    let size := s.me.sgSize ctl
    let op := redOp o.ty o.rnd (ctl / 8 % 16)
    ((Instr.vreduce o).wellFormed = true → s.readable (.vreduce o) o.g →
      vectorResult (.vreduce o) o s o.ty.is64 (fun l x fl =>
        let r := treeNode op (fun p => if p / size = l / size ∧ m.has p = true then some (s.src o.ty o.s0 p) else none) 5 (l - l % size)
        some x = r.1 ∧ fl = r.2)) ∧
    ((Instr.vscan o).wellFormed = true → s.readable (.vscan o) o.g →
      vectorResult (.vscan o) o s o.ty.is64 (fun l x fl =>
        let excl : Bool := ctl / 128 % 2 == 1
        let mine := (List.range 32).filter (fun j => m.has j && j / size == l / size)
        let js := (List.range 32).filter (fun j => m.has j && j / size == l / size && (if excl then decide (j < l) else decide (j ≤ l)))
        x = (if js = [] then redIdentity o.ty (ctl / 8 % 16) else (leftFold op (js.map (s.src o.ty o.s0))).1) ∧
        fl = (leftFold op ((if excl then mine.dropLast else mine).map (s.src o.ty o.s0))).2))

/-! ### Control flow, masks and special registers (R53, R256 to R268) -/

/-- NOP and YIELD close a step with no register written, YIELD behind the other ready warps; BRA, BRI and RET send the lanes of exec() to their target and the other lanes of the issue set past the step (R44, R53, R63, R259, R263).
CALL writes the step end to the link register in the lanes of exec() and sends them to its target (R259). SLEEP commits and leaves the ready set until its deadline, or goes on when the deadline has passed (R263). -/
def Obligations.BranchesAndSleep : Prop :=
  (∀ (s : State), s.closing →
     (∀ o : NOp, o.e = true → ∃ t, exec (.nop o) s = .next t ∧ s.committed t [] s.pastStep) ∧
     (∀ o : NOp, o.e = true → ∃ t, exec (.yield o) s = .next t ∧ s.committed t [] s.pastStep ∧ (t.warp s.actor).lastStart = s.turns + 2) ∧
     (∀ o : BOp, o.e = true → s.readable (.bra o) o.g → ∃ t, exec (.bra o) s = .next t ∧
       s.committed t [] (s.branched (s.me.execSet o.g) (fun _ =>
         if s.me.sp.kwslot = 0 then s.me.step.first + BitVec.ofNat 32 (8 * s.me.step.idx) + 8#32 * o.tgt else s.me.step.first + o.tgt))) ∧
     (∀ o : BOp, o.e = true → s.readable (.bri o) o.g → ∃ t, exec (.bri o) s = .next t ∧
       s.committed t [] (s.branched (s.me.execSet o.g) (s.srcW o.s0))) ∧
     (∀ o : BOp, o.e = true → s.readable (.ret o) o.g → ∃ t, exec (.ret o) s = .next t ∧
       s.committed t [] (s.branched (s.me.execSet o.g) (s.srcW o.s0)))) ∧
  (∀ (s : State) (o : BOp) (n : BitVec 8), s.closing → o.e = true → o.s0 = .vec n → s.readable (.call o) o.g →
     ∃ t, exec (.call o) s = .next t ∧
       s.committed t [.vec n.toNat (s.me.execSet o.g) (Lanes.splat s.me.stepEnd)] (s.branched (s.me.execSet o.g) (fun _ =>
         if s.me.sp.kwslot = 0 then s.me.step.first + BitVec.ofNat 32 (8 * s.me.step.idx) + 8#32 * o.tgt else s.me.step.first + o.tgt))) ∧
  (∀ (s : State) (o : NOp), s.closing → o.e = true → s.me.poisoned (.sleep o) s.me.step.issue = none →
     let x := s.src .n64 o.s0 0
     let sec := x / 2 ^ 32
     let ns := min (x % 2 ^ 32) 999999999
     let d : Int := (BitVec.ofNat 32 sec - BitVec.ofNat 32 s.phcSec).toInt
     ∃ t, exec (.sleep o) s = .next t ∧ s.committed t [] s.pastStep ∧
       ((d < 0 ∨ (d = 0 ∧ ns ≤ s.phcNs)) → (t.warp s.actor).wait = .ready) ∧
       (¬ (d < 0 ∨ (d = 0 ∧ ns ≤ s.phcNs)) → (t.warp s.actor).wait = .sleep sec ns))

/-- LEND counts down modulo 2^32 and goes back to the body until the count is zero; LOOP, its target step ending in a LEND above it that names the same count and comes back to the body, enters the body, or skips past the LEND when
the count is zero (R262). A LOOP whose target step fails its decode or does not end in a LEND (1), ends in one that names another count (2) or does not come back to the body (3), or does not lie above the LOOP (4) raises LOOP_FORM
with the target and the reason; a target whose fetch fails raises the fetch's cause (R262). -/
def Obligations.CountedLoops : Prop :=
  (∀ (s : State) (o : BOp) (r : BitVec 9), s.closing → o.e = true → o.s0 = .scal r →
     (s.me.poisoned (.lend o) s.me.step.issue = none → ∃ t, exec (.lend o) s = .next t ∧
       s.committed t [.scal r.toNat (s.me.sword r.toNat - 1#32)] (fun l =>
         if s.me.sword r.toNat = 1#32 then s.pastStep l else s.branched s.me.step.issue (fun _ => s.me.target s.me.opAddr o.tgt) l)) ∧
     (∀ ops len l, s.me.poisoned (.loop o) s.me.step.issue = none →
       let pc := s.me.target s.me.opAddr o.tgt
       s.probeStep s.actor pc s.me.step.issue = .step ops len → ops.getLast? = some (.lend l) → l.s0 = o.s0 →
       s.me.target (if s.me.sp.kwslot = 0 then pc + BitVec.ofNat 32 (8 * (ops.length - 1)) else pc) l.tgt = s.me.stepEnd →
       s.me.opAddr.toNat < pc.toNat →
       ∃ t, exec (.loop o) s = .next t ∧ s.committed t [] (fun l =>
         if s.me.sword r.toNat = 0#32 then s.branched s.me.step.issue (fun _ => pc + BitVec.ofNat 32 (if s.me.sp.kwslot = 0 then 8 else len)) l
         else s.pastStep l))) ∧
  (∀ (s : State) (o : BOp), s.me.tryPort = none → s.me.tryHeap = none → s.me.enabledConds = [] →
     s.me.poisoned (.loop o) s.me.step.issue = none →
     let pc := s.me.target s.me.opAddr o.tgt
     let trap (cause : Nat) (addr info : Word) : Prop := ∃ t, exec (.loop o) s = .next t ∧
       (t.warp s.actor).trapped cause s.me.step.first addr info s.me.step.issue ∧ s.sameBytes t
     (s.probeStep s.actor pc s.me.step.issue = .form → trap cLOOP_FORM pc 1#32) ∧
     (∀ c a i, s.probeStep s.actor pc s.me.step.issue = .cause c a i → (classOf c = .user ∨ classOf c = .sup) → trap c a i) ∧
     ∀ ops len, s.probeStep s.actor pc s.me.step.issue = .step ops len →
       let back (l : BOp) : Prop := s.me.target (if s.me.sp.kwslot = 0 then pc + BitVec.ofNat 32 (8 * (ops.length - 1)) else pc) l.tgt = s.me.stepEnd
       ((∀ l, ops.getLast? ≠ some (.lend l)) → trap cLOOP_FORM pc 1#32) ∧
       ∀ l, ops.getLast? = some (.lend l) →
         (l.s0 ≠ o.s0 → trap cLOOP_FORM pc 2#32) ∧
         (l.s0 = o.s0 → ¬ back l → trap cLOOP_FORM pc 3#32) ∧
         (l.s0 = o.s0 → back l → pc.toNat ≤ s.me.opAddr.toNat → trap cLOOP_FORM pc 4#32))

/-- EXIT marks the lanes of exec() exited and clears their bits in m0 to m11 at the commit; a warp with no lane left retires (R260). The clause on retirement is for a warp that owes no arrival at barrier 0. ELECT names the lowest
executing lane, and no lane when none executes; MJOIN sets and MLEAVE clears the executing lanes' bits, the other bits and every other register standing (R261, R267). MWAIT joins its lanes to the waiting set of the mask, releases
the whole set when every enrolled lane waits, and raises MASK_STATE for a lane that is not enrolled (R268). -/
def Obligations.LaneSets : Prop :=
  (∀ (s : State) (o : BOp), s.atRest → s.me.step.buf = [] → s.me.step.conds = [] → o.e = true → s.readable (.exit o) o.g →
     let m := s.me.execSet o.g
     (s.me.unexited &&& ~~~m ≠ 0#32 → ∃ t, exec (.exit o) s = .next t ∧ (t.warp s.actor).exited = s.me.exited ||| m ∧
       (∀ k, k < 12 → (t.warp s.actor).mreg k = s.me.mreg k &&& ~~~m) ∧
       (∀ r l, (t.warp s.actor).vword r l = s.me.vword r l) ∧ (∀ r, r < 500 → (t.warp s.actor).sword r = s.me.sword r) ∧ s.sameBytes t) ∧
     (s.me.unexited &&& ~~~m = 0#32 → (((s.gangOf s.me).barrier 0).count = 0 ∨ s.me.barrierArrived = true) →
       ∃ t, exec (.exit o) s = .next t ∧ (t.warp s.actor).live = false ∧ s.sameBytes t)) ∧
  (∀ (s : State) (o : NOp),
     let m := s.me.execSet o.g
     let after (t : State) (x : Word) : Prop := (t.warp s.actor).sword o.d.toNat = x ∧ (∀ r, r ≠ o.d.toNat → (t.warp s.actor).sword r = s.me.sword r) ∧
       (∀ r l, (t.warp s.actor).vword r l = s.me.vword r l) ∧ (∀ l, l < 32 → (t.warp s.actor).vpcAt l = s.pastStep l) ∧ s.sameBytes t
     (s.readable (.elect o) o.g → ∃ x, scalarResult (.elect o) o s false x ∧ (∀ l, x.testBit l = true ↔ m.has l = true ∧ ∀ j, j < l → m.has j = false)) ∧
     (s.closing → s.me.step.buf = [] → o.e = true → 500 ≤ o.d.toNat →
       (s.readable (.mjoin o) o.g → ∃ t, exec (.mjoin o) s = .next t ∧ after t (s.me.sword o.d.toNat ||| m)) ∧
       (s.readable (.mleave o) o.g → ∃ t, exec (.mleave o) s = .next t ∧ after t (s.me.sword o.d.toNat &&& ~~~m)))) ∧
  (∀ (s : State) (o : NOp) (r : BitVec 9), s.closing → s.me.step.buf = [] → o.e = true → o.s0 = .scal r → 500 ≤ r.toNat →
     s.readable (.mwait o) o.g →
     let m := s.me.execSet o.g
     let k := r.toNat - 500
     let enrolled := s.me.mreg k &&& s.me.unexited
     (m &&& ~~~(s.me.mreg k) = 0#32 → ∃ t, exec (.mwait o) s = .next t ∧ (∀ l, l < 32 → (t.warp s.actor).vpcAt l = s.pastStep l) ∧
       (t.warp s.actor).wsets.get k = (if enrolled &&& ~~~(s.me.wsets.get k ||| m) = 0#32 then 0#32 else s.me.wsets.get k ||| m) ∧
       (∀ r', (t.warp s.actor).sword r' = s.me.sword r') ∧ s.sameBytes t) ∧
     (m &&& ~~~(s.me.mreg k) ≠ 0#32 → ∃ t, exec (.mwait o) s = .next t ∧
       (t.warp s.actor).trapped cMASK_STATE s.me.step.first 0#32 (BitVec.ofNat 32 k) (m &&& ~~~(s.me.mreg k)) ∧ s.sameBytes t))

/-- RDSR returns a special register as it stood before the step and takes the snapshots of R33; a lane-indexed register goes to a vector (R33, R266). A replay gang logs the read of a clock or of the quadrant, and reads the same.
WRSR writes at the commit; FLAGS keeps its seven bits and FPCTL its eight, reserved bits ignored (R11, R34, R35, R266). -/
def Obligations.SpecialRegisters : Prop :=
  (∀ (s : State) (o : IOp),
     let w := s.me
     let g := s.gangOf w
     let out (x : Word) (snap : List Buf) : Prop := ∃ t, (t = s ∨ t = s.logRead s.actor w.step.issue (natBytes 4 x.toNat)) ∧
       exec (.rdsr o) s = .next (t.finish o.e (some (Lanes.splat x)) (snap ++ if o.v then [] else [.scal o.d.toNat x]) [])
     let lanes (f : Nat → Nat) : Prop :=
       exec (.rdsr o) s = .next (s.finish o.e (some (lowWords f)) (vecWrites o.v o.d.toNat false w.step.issue f) [])
     (o.imm = 0x00#32 → lanes (fun l => l)) ∧ (o.imm = 0x0E#32 → lanes (fun l => (w.vpcAt l).toNat)) ∧
     (o.imm = 0x01#32 → out (BitVec.ofNat 32 w.wid) []) ∧ (o.imm = 0x02#32 → out (BitVec.ofNat 32 g.gangId) []) ∧
     (o.imm = 0x03#32 → out (BitVec.ofNat 32 w.role) []) ∧
     (o.imm = 0x04#32 → out (BitVec.ofNat 32 w.sp.steps) [.snapSteps (BitVec.ofNat 32 (w.sp.steps / 2 ^ 32))]) ∧
     (o.imm = 0x05#32 → out w.sp.stepsHi []) ∧
     (o.imm = 0x06#32 → out (BitVec.ofNat 32 (s.phc % 65536))
       [.snapPhc (BitVec.ofNat 32 s.phcNs) (BitVec.ofNat 32 s.phcSec) (BitVec.ofNat 32 (s.phcSec / 2 ^ 32 % 65536))]) ∧
     (o.imm = 0x07#32 → out w.sp.phcNs []) ∧ (o.imm = 0x08#32 → out w.sp.phcSec []) ∧ (o.imm = 0x09#32 → out w.sp.phcSech []) ∧
     (o.imm = 0x0A#32 → out w.sp.flags []) ∧ (o.imm = 0x0B#32 → out w.sp.fpctl []) ∧ (o.imm = 0x0C#32 → out (BitVec.ofNat 32 w.sp.kwslot) []) ∧
     (o.imm = 0x0D#32 → out w.sp.spillp []) ∧ (o.imm = 0x0F#32 → out w.sp.tcause []) ∧ (o.imm = 0x10#32 → out w.sp.tpc []) ∧
     (o.imm = 0x11#32 → out w.sp.taddr []) ∧ (o.imm = 0x12#32 → out w.sp.tmask []) ∧ (o.imm = 0x13#32 → out w.sp.tinfo []) ∧
     (o.imm = 0x14#32 → out w.sp.emuvec []) ∧ (o.imm = 0x15#32 → out w.sp.trapvec []) ∧
     (o.imm = 0x20#32 → out (BitVec.ofNat 32 g.ctx) []) ∧ (o.imm = 0x21#32 → out (BitVec.ofNat 32 g.part) []) ∧
     (o.imm = 0x16#32 → out (BitVec.ofNat 32 (s.ctx (s.ckOf w)).dbg.edits) []) ∧
     (o.imm = 0x22#32 → (s.quad w.quad).owner = none → out 0xFFFFFFFF#32 []) ∧
     (∀ c, o.imm = 0x22#32 → (s.quad w.quad).owner = some c → out (BitVec.ofNat 32 c) []) ∧
     (o.imm = 0x23#32 → out (BitVec.ofNat 32 (s.quad w.quad).live) []) ∧
     (o.imm = 0x24#32 → out w.sp.spillbase []) ∧ (o.imm = 0x25#32 → out w.sp.spillsize []) ∧
     (o.imm = 0x26#32 → out (BitVec.ofNat 32 (w.quad + w.quad / 32 * 2 ^ 10 + w.quad / 128 * 2 ^ 15)) [])) ∧
  (∀ (s : State) (o : IOp), s.atRest → s.me.step.buf = [] → s.me.step.conds = [] → o.e = true → s.readable (.wrsr o) .all →
     let x := s.srcW o.s0 0
     ∃ t, exec (.wrsr o) s = .next t ∧ s.sameBytes t ∧
       (∀ r l, (t.warp s.actor).vword r l = s.me.vword r l) ∧ (∀ r, (t.warp s.actor).sword r = s.me.sword r) ∧
       let sp := (t.warp s.actor).sp
       (o.imm = 0x0A#32 → sp.flags = x &&& 0x7F#32) ∧ (o.imm ≠ 0x0A#32 → sp.flags = s.me.sp.flags) ∧
       (o.imm = 0x0B#32 → sp.fpctl = x &&& 0xFF#32) ∧ (o.imm ≠ 0x0B#32 → sp.fpctl = s.me.sp.fpctl) ∧
       (o.imm = 0x0D#32 → sp.spillp = x) ∧ (o.imm = 0x0F#32 → sp.tcause = x) ∧ (o.imm = 0x10#32 → sp.tpc = x) ∧ (o.imm = 0x11#32 → sp.taddr = x) ∧
       (o.imm = 0x12#32 → sp.tmask = x) ∧ (o.imm = 0x13#32 → sp.tinfo = x) ∧ (o.imm = 0x14#32 → sp.emuvec = x) ∧ (o.imm = 0x15#32 → sp.trapvec = x) ∧
       (o.imm = 0x24#32 → sp.spillbase = x) ∧ (o.imm = 0x25#32 → sp.spillsize = x) ∧ sp.steps = s.me.sp.steps + 1)

/-! ### Taking an exception and returning from one (R264, R341 to R347) -/

/-- A user-class entry: the trap window, the trap registers, user mode, slot 0, the unexited lanes of TMASK at TRAPVEC with bit 0 cleared, every other unexited lane held; mode, slot and held lanes saved; no other general register
and no byte changes (R343, R344). A user-class cause raised in user handler or supervisor mode, or while TRAPVEC[0] = 0, goes to the supervisor (R344). -/
def Obligations.UserTrapEntry : Prop :=
  (∀ (s : State) (w : Warp) (cause : Nat), classOf cause = .user → (w.mode = .user ∨ w.mode = .sup ∨ w.sp.trapvec.getLsbD 0 = false) → s.deliveryClass w cause = .sup) ∧
  ∀ (s : State) (u cause : Nat) (tpc taddr tinfo : Word) (tmask : Mask),
    let w := s.warp u
    w.tryPort = none → w.tryHeap = none → classOf cause = .user → cause < 64 → (w.mode = .normal ∨ w.mode = .emu) → w.sp.trapvec.getLsbD 0 = true →
    let t := s.deliver u cause tpc taddr tinfo tmask
    let x := t.warp u
    x.trapped cause tpc taddr tinfo tmask ∧ x.mode = .user ∧ x.sp.kwslot = 0 ∧
    x.rsU = ({ mode := w.mode, kwslot := w.sp.kwslot, held := w.held } : RStateU) ∧
    (∀ l, l < 32 → x.vpcAt l = if Mask.has (tmask &&& w.unexited) l then w.sp.trapvec &&& ~~~1#32 else w.vpcAt l) ∧
    x.held = w.unexited &&& ~~~tmask ∧
    x.sword 480 = BitVec.ofNat 32 cause ∧ x.sword 481 = tpc ∧ x.sword 482 = taddr ∧ x.sword 483 = tmask ∧ x.sword 484 = tinfo ∧
    x.sword 485 = w.sp.flags ∧ (w.sp.kwslot < 16 → x.sword 486 = BitVec.ofNat 32 ((if w.mode = .emu then 16 else 0) + w.sp.kwslot)) ∧
    x.sword 487 = w.held ∧ (∀ r, 488 ≤ r → r < 496 → x.sword r = 0#32) ∧
    (∀ r, (r < 480 ∨ 496 ≤ r) → x.sword r = w.sword r) ∧ x.regs.vec = w.regs.vec ∧ x.sp.flags = w.sp.flags ∧ x.rsS = w.rsS ∧
    s.sameBytes t ∧ ∀ v, v ≠ u → t.warp v = s.warp v

/-- A supervisor-class entry: the trap registers, supervisor mode, slot 0, the unexited lanes of TMASK at the context's supervisor entry, the others held, nothing waited for; the first entry saves the five registers, mode, slot,
held lanes and waits, an entry from supervisor mode saves nothing; no general register and no byte changes (R343, R345). -/
def Obligations.SupervisorTrapEntry : Prop :=
  ∀ (s : State) (u cause : Nat) (tpc taddr tinfo : Word) (tmask : Mask),
    let w := s.warp u
    w.tryPort = none → w.tryHeap = none →
    (classOf cause = .sup ∨ (classOf cause = .user ∧ (w.mode = .user ∨ w.mode = .sup ∨ w.sp.trapvec.getLsbD 0 = false)) ∨
      (classOf cause = .emu ∧ w.mode = .sup)) →
    let t := s.deliver u cause tpc taddr tinfo tmask
    let x := t.warp u
    x.trapped cause tpc taddr tinfo tmask ∧ x.mode = .sup ∧ x.sp.kwslot = 0 ∧ x.regs = w.regs ∧ x.sp.flags = w.sp.flags ∧
    (∀ l, l < 32 → x.vpcAt l = if Mask.has (tmask &&& w.unexited) l then (s.ctx (s.ckOf w)).supEntry else w.vpcAt l) ∧
    x.held = w.unexited &&& ~~~tmask ∧ x.wait = .ready ∧ x.wsets = [] ∧
    (w.mode = .sup → x.rsS = w.rsS) ∧
    (w.mode ≠ .sup → x.rsS = ({ tcause := w.sp.tcause, tpc := w.sp.tpc, taddr := w.sp.taddr, tmask := w.sp.tmask, tinfo := w.sp.tinfo, mode := w.mode, kwslot := w.sp.kwslot, held := w.held, wait := w.wait, wsets := w.wsets } : RStateS)) ∧
    s.sameBytes t ∧ ∀ v, v ≠ u → t.warp v = s.warp v

/-- A faulting operation commits nothing: the cause is delivered at the step's first address, and the step's buffered writes are gone (R6, R27, R343). A step in which a condition enabled in FPCTL has been raised commits nothing:
it traps with the lowest enabled cause, TMASK the lanes that raised it, and no general register outside the trap window and no byte changes (R35, R104). -/
def Obligations.FaultsCommitNothing : Prop :=
  (∀ (s : State) (cause : Nat) (taddr tinfo : Word) (tmask : Mask), s.me.tryPort = none → s.me.tryHeap = none → s.me.enabledConds = [] →
     (classOf cause = .user ∨ classOf cause = .sup) →
     let t := s.raise cause taddr tinfo tmask
     (t.warp s.actor).trapped cause s.me.step.first taddr tinfo tmask ∧ (t.warp s.actor).step = {} ∧
     (t.warp s.actor).regs.vec = s.me.regs.vec ∧ (∀ r, (r < 480 ∨ 496 ≤ r) → (t.warp s.actor).sword r = s.me.sword r) ∧
     (t.warp s.actor).sp.flags = s.me.sp.flags ∧ (t.warp s.actor).sp.steps = s.me.sp.steps ∧ s.sameBytes t) ∧
  (∀ (s : State) (res : Option Lanes) (buf : List Buf) (conds : List Cond),
     s.me.tryPort = none → s.me.tryHeap = none →
     (∃ c ∈ s.me.step.conds ++ conds, s.me.sp.fpctl.getLsbD c.bit = true ∧ c.bit < 7) →
     (∀ c ∈ s.me.step.conds ++ conds, c.bit < 8) →
     let t := s.finish true res buf conds
     let all := s.me.step.conds ++ conds
     ∃ b, b < 7 ∧ (∃ c ∈ all, c.bit = b) ∧ s.me.sp.fpctl.getLsbD b = true ∧
       (∀ c ∈ all, s.me.sp.fpctl.getLsbD c.bit = true → b ≤ c.bit) ∧
       (t.warp s.actor).sp.tcause = BitVec.ofNat 32 (0x30 + b) ∧
       (t.warp s.actor).sp.tpc = s.me.step.first ∧
       (∀ l, (t.warp s.actor).sp.tmask.getLsbD l = true ↔ ∃ c ∈ all, c.bit = b ∧ c.lanes.getLsbD l = true) ∧
       (t.warp s.actor).sp.flags = s.me.sp.flags ∧
       (t.warp s.actor).regs.vec = s.me.regs.vec ∧ (∀ r, (r < 480 ∨ 496 ≤ r) → (t.warp s.actor).sword r = s.me.sword r) ∧
       s.sameBytes t)

/-- TRAP commits its step and delivers SOFT_TRAP at the step end with its immediate; BKPT delivers BREAKPOINT at the step's first address without committing, to the debugger when one is attached, but not in supervisor mode (R264,
R343). TRET in a user handler returns the unexited lanes of TMASK to TPC and restores mode, slot and held lanes; in a supervisor handler it restores the five trap registers and the waits too; elsewhere it raises ILLEGAL_OP (R264,
R346). The supervisor clause is for a gang without a wait that ended in a trap meanwhile. -/
def Obligations.TrapInstructions : Prop :=
  (∀ (s : State) (o : IOp), s.closing → o.e = true → s.me.step.issue ≠ 0#32 →
     (∃ t, exec (.trap o) s = .next t ∧ (t.warp s.actor).trapped cSOFT_TRAP s.me.stepEnd 0#32 o.imm s.me.step.issue ∧
       (t.warp s.actor).sp.steps = s.me.sp.steps + 1 ∧ s.sameBytes t) ∧
     ((s.attached (s.ckOf s.me) = false ∨ s.me.mode = .sup) → ∃ t, exec (.bkpt o) s = .next t ∧
       (t.warp s.actor).trapped cBREAKPOINT s.me.step.first s.me.step.first o.imm s.me.step.issue ∧
       (t.warp s.actor).sp.steps = s.me.sp.steps ∧ s.sameBytes t) ∧
     (s.attached (s.ckOf s.me) = true → s.me.mode ≠ .sup → ∃ t, exec (.bkpt o) s = .next t ∧
       (t.warp s.actor).stopRec.valid = true ∧ (t.warp s.actor).stopRec.cause = cBREAKPOINT ∧ (t.warp s.actor).stopRec.tpc = s.me.step.first ∧
       (t.warp s.actor).stopRec.tinfo = o.imm ∧ (t.warp s.actor).stopRec.tmask = s.me.step.issue ∧ (t.gang s.me.gang).halted = true ∧
       (t.warp s.actor).sp = s.me.sp ∧ s.sameBytes t)) ∧
  (∀ (s : State) (o : NOp), s.closing → s.me.step.buf = [] → o.e = true →
     let w := s.me
     let back (l : Nat) : Word := if Mask.has (w.sp.tmask &&& w.unexited) l then w.sp.tpc else s.pastStep l
     (w.mode = .user → ∃ t, exec (.tret o) s = .next t ∧
       (t.warp s.actor).mode = w.rsU.mode ∧ (t.warp s.actor).sp.kwslot = w.rsU.kwslot ∧ (t.warp s.actor).held = w.rsU.held ∧
       (∀ l, l < 32 → (t.warp s.actor).vpcAt l = back l) ∧ (t.warp s.actor).regs = w.regs ∧ s.sameBytes t) ∧
     (w.mode = .sup → (∀ c p a i m, w.rsS.wait ≠ .trap c p a i m) → (∀ v ∈ (s.gangOf w).warps, ∀ c p a i m, (s.warp v).wait ≠ .trap c p a i m) →
       ∃ t, exec (.tret o) s = .next t ∧
       (t.warp s.actor).mode = w.rsS.mode ∧ (t.warp s.actor).sp.kwslot = w.rsS.kwslot ∧ (t.warp s.actor).held = w.rsS.held ∧
       (t.warp s.actor).wait = w.rsS.wait ∧ (t.warp s.actor).wsets = w.rsS.wsets ∧
       (t.warp s.actor).sp.tcause = w.rsS.tcause ∧ (t.warp s.actor).sp.tpc = w.rsS.tpc ∧ (t.warp s.actor).sp.taddr = w.rsS.taddr ∧
       (t.warp s.actor).sp.tmask = w.rsS.tmask ∧ (t.warp s.actor).sp.tinfo = w.rsS.tinfo ∧
       (∀ l, l < 32 → (t.warp s.actor).vpcAt l = back l) ∧ (t.warp s.actor).regs = w.regs ∧ s.sameBytes t) ∧
     ((w.mode = .normal ∨ w.mode = .emu) → ∃ t, exec (.tret o) s = .next t ∧ (t.warp s.actor).sp.tcause = 1#32 ∧
       (t.warp s.actor).sp.tpc = w.step.first ∧ s.sameBytes t))

/-! ### One step of the machine (R24, R27, R36, R54, R283, R383) -/

/-- A quadrant's turn: the warp it picks fetches the word at its least lane program counter; a word that decodes to an operation the warp may run is the step, and the turn's outcome is that operation's `exec` in a state that
differs in the step in progress and the counters of issue alone; what follows an issue is `afterIssue` (R24, R27, R36, R54). The model's own readings in it are log entry 12. -/
def Obligations.StepRunsDecoded : Prop :=
  ∀ (s : State) (q u : Nat) (pc : Word) (b : List Byte) (i : Instr),
    s.powered = true → s.nextTurn = some (.issue q) →
    let s0 : State := s.chooseTurn.2
    let w := s.warp u
    let g := s.gangOf w
    s0.pickWarp q = some u → (s.launch g.launch).trigger = none → (s.launch g.launch).replay = false → w.step.started = false → w.issuePc = some pc → pc.toNat % 8 = 0 →
    w.sp.kwslot = 0 → w.bound = 0 → s.loopStep u pc = none → s.breakAt (s.ckOf w) 0 pc = false →
    s.fetch (quadCluster w.quad) g.part g.ctx w.isSup pc.toNat 8 = .ok b → decode (wordOfBytes b) = .ok i → i.e = true → w.mayRun i →
    ∃ p : State, step s = afterExec u (exec i p) ∧ p.actor = u ∧ p.me.step.ops = [i] ∧ p.me.step.first = pc ∧ p.me.step.len = 8 ∧
      p.me.step.issue = w.issueSet ∧ p.me.step.latches = [] ∧ p.me.step.buf = [] ∧ p.me.step.conds = [] ∧
      p.me.regs = w.regs ∧ p.me.sp = w.sp ∧ p.me.mode = w.mode ∧ p.me.held = w.held ∧ p.me.exited = w.exited ∧
      p.mem = s.mem ∧ p.gangs = s.gangs ∧ p.parts = s.parts ∧ p.launches = s.launches ∧ p.phc = s.phc ∧ ∀ v, v ≠ u → p.warp v = s.warp v

/-- Guest code. A guest instruction whose matching entry names a template becomes the operations of the template with its fields substituted, checked as native ones are; one whose entry names none enters emulation handler mode,
with the trap registers of R64, the fields and their descriptors in the trap window, the lanes of TMASK at EMUVEC, every other unexited lane held, slot 0, and no other register and no byte changed. An entry matches in the first
plane that has one, by the highest PRIO, then the lowest index; a field fills a slot where its kind and value fit (R64, R68, R70, R71). The model's own readings in it are log entry 39. -/
def Obligations.GuestSteps : Prop :=
  (∀ (s : State) (u : Nat) (pc gword ginfo : Word) (m : Mask) (fields : List GField), (s.warp u).isSup = false →
    let w := s.warp u
    let t := s.emulate u pc m gword ginfo fields
    let x := t.warp u
    x.trapped cGUEST_NOTEMPLATE pc gword ginfo m ∧ x.mode = .emu ∧ x.sp.kwslot = 0 ∧ x.held = w.unexited &&& ~~~m ∧
    (∀ l, l < 32 → x.vpcAt l = if Mask.has (m &&& w.unexited) l then w.sp.emuvec else w.vpcAt l) ∧
    (∀ r, (r < 480 ∨ 496 ≤ r) → x.sword r = w.sword r) ∧ x.regs.vec = w.regs.vec ∧ x.sp.flags = w.sp.flags ∧ s.sameBytes t ∧ (∀ v, v ≠ u → t.warp v = s.warp v) ∧
    ∀ i, i < 8 →
      ((∀ f, fields[i]? = some f → f.present = false) → x.sword (480 + i) = 0#32 ∧ x.sword (488 + i) = 0#32) ∧
      ∀ f, fields[i]? = some f → f.present = true → f.kind < 6 →
        let v := f.value.toInt
        let off : Bool := match f.kind with
          | 0 => v < 0 || 255 < v || w.vbudget ≤ v.toNat
          | 1 => v < 0 || 511 < v || !w.scalNamed v.toNat
          | 3 => v < 0 || 511 < v
          | 4 => v < 0 || 11 < v
          | _ => false
        (x.sword (488 + i)).toNat = (if off then 2 ^ 20 else 0) + 2 ^ 19 + f.kind * 2 ^ 16 + (if f.kind = 2 ∨ f.kind = 5 then 0 else f.value.toNat % 65536) ∧
        x.sword (480 + i) = match f.kind with
          | 1 => if off then 0#32 else w.sword v.toNat
          | 3 => if off then 0#32 else (s.launch (s.gangOf w).launch).consts.get v.toNat
          | 4 => if off then 0#32 else w.mreg v.toNat
          | 5 => pc + f.value
          | _ => f.value) ∧
  (∀ (s : State) (u : Nat) (pc : Word) (m : Mask) (b1 b : List Byte) (glen ent ctl : Nat),
    let w := s.warp u
    let g := s.gangOf w
    let cl := quadCluster w.quad
    let img := ((s.part g.part).slots.get w.sp.kwslot).image
    let fields := imgFields img (ctl / 2 ^ 16 % 64) (bytesNat b)
    let gd := fields.find? (·.guard)
    let gword := BitVec.ofNat 32 (bytesNat b)
    let ginfo := guestInfo (ctl / 2 ^ 16 % 64) ent w.sp.kwslot glen
    w.sp.kwslot ≠ 0 → w.misplaced = false → w.bound = 0 → s.slotForeign g.part g.ctx w.sp.kwslot = false → pc.getLsbD 0 = false →
    (∀ e ∈ (s.cluster cl).dcache, e.tag ≠ { ck := s.ckOf w, slot := w.sp.kwslot, gen := imgGen img, addr := pc }) →
    s.fetch cl g.part g.ctx w.isSup pc.toNat 2 = .ok b1 → imgLength img (bytesNat b1) = some glen → s.fetch cl g.part g.ctx w.isSup pc.toNat glen = .ok b →
    imgMatch img (bytesNat b) = some (ent, ctl) → (∀ f, gd = some f → 0 ≤ f.value.toInt ∧ f.value.toInt ≤ 11) →
    let at_ (f : GField) : Mask := m &&& w.mreg f.value.toInt.toNat
    (ctl % 4096 = 0xFFF → (gd.elim m at_) ≠ 0#32 → s.beginGuest u pc m = s.emulate u pc (gd.elim m at_) gword ginfo fields) ∧
    (ctl % 4096 ≠ 0xFFF →
      let raw : List RawOp := (imgOps img (ctl % 4096)).map (fun x =>
        let r := substOp fields x.1 x.2
        { word := BitVec.ofNat 64 (gd.elim r.1 (fun f => guardOp f.value.toInt.toNat r.1)), badSub := r.2 })
      (∀ ops, w.checkOps raw 0 [] = .ok ops → stepForm ops 0 false = none →
        let t := s.beginGuest u pc m
        (t.warp u).step.started = true ∧ (t.warp u).step.ops = ops ∧ (t.warp u).step.first = pc ∧ (t.warp u).step.len = glen ∧ (t.warp u).step.issue = m ∧
        (t.warp u).step.buf = [] ∧ (t.warp u).regs = w.regs ∧ s.sameBytes t ∧ ∀ v, v ≠ u → t.warp v = s.warp v) ∧
      (∀ c k, w.checkOps raw 0 [] = .error (c, k) → w.tryPort = none → w.tryHeap = none → (classOf c = .user ∨ classOf c = .sup) →
        ((s.beginGuest u pc m).warp u).trapped c pc gword (ginfo + BitVec.ofNat 32 k) m ∧ s.sameBytes (s.beginGuest u pc m)))) ∧
  (∀ (img : List Byte) (word g ctl : Nat), imgMatch img word = some (g, ctl) →
    let prio (c : Nat) := c / 2 ^ 12 % 16
    g / 256 < imgNat img 0x11 1 ∧ imgEntry img word (g / 256) (g % 256) = some ctl ∧
    (∀ i c, i < 256 → imgEntry img word (g / 256) i = some c → prio c ≤ prio ctl ∧ (prio c = prio ctl → g % 256 ≤ i)) ∧
    ∀ q i, q < g / 256 → i < 256 → imgEntry img word q i = none) ∧
  (∀ w lo n v j, (putBits w lo n v).testBit j = if lo ≤ j ∧ j < lo + n then v.testBit (j - lo) else w.testBit j) ∧
  (∀ (w lo : Nat) (f : GField), f.present = true →
    let v := f.value.toInt
    let n := v.toNat
    let fits (a b : Int) : Prop := a ≤ v ∧ v ≤ b
    (f.kind = 0 → fits 0 255 → fillSlot w .d f = some (putBits w 43 9 n) ∧ fillSlot w (.s lo) f = some (putBits w lo 11 n) ∧ fillSlot w .data f = some (putBits w 43 10 n)) ∧
    (f.kind = 1 → fits 0 511 → fillSlot w .d f = some (putBits w 43 9 n) ∧ fillSlot w (.s lo) f = some (putBits w lo 11 (512 + n)) ∧ fillSlot w .data f = some (putBits w 43 10 (512 + n))) ∧
    (f.kind = 4 → fits 0 11 → fillSlot w .d f = some (putBits w 43 9 (500 + n)) ∧ fillSlot w (.s lo) f = some (putBits w lo 11 (1012 + n)) ∧
      fillSlot w .data f = some (putBits w 43 10 (1012 + n))) ∧
    (f.kind = 3 → fits 0 511 → fillSlot w (.s lo) f = some (putBits w lo 11 (1024 + n))) ∧
    (f.kind = 2 → (fits 0 255 → fillSlot w (.s lo) f = some (putBits w lo 11 (1536 + n))) ∧ (fits (-128) (-1) → fillSlot w (.s lo) f = some (putBits w lo 11 (1536 + (v + 0x180).toNat))) ∧
      fillSlot w .imm f = some (putBits w 0 32 f.value.toNat) ∧ (fits (-524288) 524287 → fillSlot w .off f = some (putBits w 12 20 (f.value.toNat % 2 ^ 20)))) ∧
    (f.kind = 5 → fillSlot w .tgt f = some (putBits w 16 32 f.value.toNat)) ∧
    ((f.kind = 2 ∨ f.kind = 3 ∨ f.kind = 5) → fillSlot w .d f = none ∧ fillSlot w .data f = none) ∧
    (f.kind = 0 → ¬ fits 0 255 → fillSlot w .d f = none ∧ fillSlot w (.s lo) f = none ∧ fillSlot w .data f = none))

/-- After reset nothing is running and nothing is stored: no warp, gang, launch, context or partition, no port, pattern or heap, nothing in a queue or on its way, every general and special register and every byte of memory zero,
the power off. Any package whose power is off and that has no input has no step; one whose power is off executes of its inputs only those of its module (R383, R384). The zeros are the model's choice (log entry 2). -/
def Obligations.ResetState : Prop :=
  State.reset.memOk ∧ (∀ a, State.reset.byte a = 0#8) ∧ State.reset.powered = false ∧
  (∀ s : State, s.powered = false → s.inputs = [] → step s = .fault .poweredOff) ∧
  (∀ (s : State) (i : Instr) (rest : List Instr), s.powered = false → s.inputs = i :: rest → step s = if worksOff i then exec i (s.takeInput i) else .next (s.takeInput i)) ∧
  (∀ u, let sp := (State.reset.warp u).sp
    sp.steps = 0 ∧ sp.stepsHi = 0#32 ∧ sp.phcNs = 0#32 ∧ sp.phcSec = 0#32 ∧ sp.phcSech = 0#32 ∧ sp.flags = 0#32 ∧ sp.fpctl = 0#32 ∧ sp.kwslot = 0 ∧ sp.spillp = 0#32 ∧
    (∀ l, (State.reset.warp u).vpcAt l = 0#32) ∧ sp.tcause = 0#32 ∧ sp.tpc = 0#32 ∧ sp.taddr = 0#32 ∧ sp.tmask = 0#32 ∧ sp.tinfo = 0#32 ∧ sp.emuvec = 0#32 ∧ sp.trapvec = 0#32 ∧
    sp.spillbase = 0#32 ∧ sp.spillsize = 0#32) ∧
  (let r := State.reset
   r.inputs = [] ∧ r.portOps = [] ∧ r.heldStores = [] ∧ r.hostStores = [] ∧ r.acks = [] ∧ r.copies = [] ∧ r.colls = [] ∧ r.sends = [] ∧ r.jobs = [] ∧ r.outbox = [] ∧ r.unitQ = [] ∧
   r.heapQ = [] ∧ r.heaps = [] ∧ r.ports = [] ∧ r.pats = [] ∧ r.ens = [] ∧ r.tlb = [] ∧ r.walks = [] ∧
   (∀ q, (r.quad q).queue = [] ∧ (r.quad q).rows = [] ∧ (r.quad q).owner = none) ∧ (∀ c, (r.cluster c).l1 = [] ∧ (r.cluster c).gen = 0) ∧ (∀ k, (r.ctx k).live = false)) ∧
  (∀ u r l, (State.reset.warp u).live = false ∧ (State.reset.warp u).vword r l = 0#32 ∧ (State.reset.warp u).sword r = 0#32) ∧
  (∀ g, (State.reset.gang g).place = .absent) ∧ (∀ n, (State.reset.launch n).live = false) ∧ (∀ p, (State.reset.part p).live = false)

/-! ### Memory (R167 to R190, R204 to R214) -/

/-- The first checks of an access go in the order of R181: alignment, the limits of the space, then translation; each names the lowest failing lane's address and the lanes that fail with its cause. An access that passes gives each
lane its address and pieces that cover its bytes (R168, R181). The model's own readings in it are log entry 22. -/
def Obligations.AccessChecks : Prop :=
  ∀ (s : State) (sp : Space) (acc : Access) (n al : Nat) (m : Mask) (np lines : Bool) (ea : Nat → Nat), 0 < n → 0 < al →
    (∀ l, l < 32 → m.has l = true → ea l % al ≠ 0 → (∀ k, k < l → m.has k = true → ea k % al = 0) →
      s.check sp acc n al m np lines ea = .fault cMISALIGNED (BitVec.ofNat 32 (ea l)) (memInfo (spaceCode sp) acc.macc l s.me.step.idx (ea l))
        (Mask.ofFn (fun k => m.has k && ea k % al != 0))) ∧
    ((∀ l, l < 32 → m.has l = true → ea l % al = 0) → ∀ l p, l < 32 → m.has l = true → (piecesOf sp (ea l) n).find? (s.outside sp s.me) = some p →
      (∀ k, k < l → m.has k = true → ∀ q ∈ piecesOf sp (ea k) n, s.outside sp s.me q = false) →
      let a := if sp = .spill then ea l else p.va
      s.check sp acc n al m np lines ea = .fault cSPACE_LIMIT (BitVec.ofNat 32 a) (memInfo (spaceCode sp) acc.macc l s.me.step.idx a)
        (Mask.ofFn (fun k => m.has k && (piecesOf sp (ea k) n).any (s.outside sp s.me)))) ∧
    ((∀ l, l < 32 → m.has l = true → ea l % al = 0) → (∀ l, l < 32 → m.has l = true → ∀ q ∈ piecesOf sp (ea l) n, s.outside sp s.me q = false) →
      (sp = .dom → ∀ l, l < 32 → m.has l = true → s.unreach.get (ea l / 2 ^ 32 % 64) = false) →
      ∀ l xs p ys c, l < 32 → m.has l = true → piecesOf sp (ea l) n = xs ++ p :: ys → s.place sp s.me acc l p = .cause c →
      (∀ q ∈ xs, ∀ d, s.place sp s.me acc l q ≠ .cause d) →
      (∀ k, k < l → m.has k = true → ∀ q ∈ piecesOf sp (ea k) n, ∀ d, s.place sp s.me acc k q ≠ .cause d) →
      let a := if sp = .spill then s.me.spillVa l p.va else p.va
      ∃ tm, s.check sp acc n al m np lines ea = .fault c (BitVec.ofNat 32 a) (memInfo (spaceCode sp) acc.macc l s.me.step.idx a) tm ∧
        ∀ k, k < 32 → (tm.has k = true ↔ m.has k = true ∧ ∃ us q vs, piecesOf sp (ea k) n = us ++ q :: vs ∧ s.place sp s.me acc k q = .cause c ∧
          ∀ r ∈ us, ∀ d, s.place sp s.me acc k r ≠ .cause d)) ∧
    (∀ refs, s.check sp acc n al m np lines ea = .ok refs →
      refs.map LaneRef.lane = m.lanes ∧ ∀ r ∈ refs, r.ea = ea r.lane ∧ r.ea % al = 0 ∧ r.locs.length = n ∧
        ∀ p ∈ r.pieces, s.place sp s.me acc r.lane { p with loc := 0, tso := false } = .ok p.loc p.tso)

/-- A load reads the bytes of each lane in its space, through its cluster's L1 where the space is cached; below four bytes they are zero- or sign-extended. The words go into a reply for D, the first into b0 in the lanes that load;
a no-park load leaves in m11 which lanes were present. The fences of the step come before it; no register and no byte changes (R31, R178, R186, R229). The model's own readings in it are log entries 18, 20 and 43. -/
def Obligations.LoadsReadBytes : Prop :=
  ∀ p ∈ [(Instr.ldspl, Space.spill), (Instr.ldgng, Space.gang), (Instr.ldscr, Space.scr), (Instr.lddom, Space.dom), (Instr.ldhst, Space.host)],
  ∀ (o : LdOp) (s : State) (refs : List LaneRef),
    let i := p.1 o
    let m := s.me.step.issue
    let n := sizeBytes o.size
    let c := quadCluster s.me.quad
    let f := s.fenced s.actor
    let good (r : LaneRef) : Bool := !(o.np && (f.absentLine c p.2 .read r).isSome)
    let v := f.fillFor c p.2 (refs.filter good)
    i.wellFormed = true → s.me.poisoned i m = none → s.drained →
    s.check p.2 .read n (min n 16) m o.np true (s.ea p.2 o.s0 o.off.toInt) = .ok refs →
    ∃ (t : State) (id : Nat) (vals : List Lanes) (b0 : Lanes) (m11 : Mask),
      exec i s = .next (t.finish o.e (some b0) (.reply id :: (if o.np then [s.me.maskWrite 511 m m11] else [])) []) ∧
      vals.length = sizeRegs o.size ∧ (∀ l, l < 32 → m.has l = true → b0.at l = (vals.headD []).at l) ∧
      (∀ r ∈ refs, good r = true → ∀ j, j < vals.length → (vals.getD j []).at r.lane = (loadWords n o.sgn (v.laneBytes s.actor c p.2 r)).getD j 0#32) ∧
      (∀ r ∈ refs, m11.has r.lane = true ↔ good r = true ∧ s.me.present.has r.lane = true) ∧
      (∀ l, m.has l = false → m11.has l = ((s.me.mreg 11).has l && s.me.present.has l)) ∧
      (let y := t.me.replies.get id
       y.vec = true ∧ y.base = o.d.toNat ∧ y.n = (if o.v then 0 else sizeRegs o.size) ∧ y.lanes = m ∧ y.vals = vals ∧ y.have_ = true ∧ y.held = false ∧ y.fails = []) ∧
      s.sameRegs t ∧ s.sameBytes t

/-- A store writes the low bytes of each lane's data at the addresses the checks gave, the highest lane's byte standing, and nothing else; one that is held back waits with its bytes, which its own warp reads; a host store is
posted, each lane's bytes within 16-byte units apart, and changes no byte yet (R178, R179, R228, R247). The model's own readings in it are log entries 7 and 23. PSET makes each lane's line present, which wakes every warp parked on
it, and PCLR absent; held back, either waits with its lines. PQRY tells a line's state (0 absent, 1 present, 2 failed). No other line and no byte changes (R184, R187). The model's own readings in it are log entries 7 and 86. -/
def Obligations.StoresWriteBytes : Prop :=
  (∀ (o : StOp) (s : State) (refs : List LaneRef), s.drained → s.sure o.e →
     let m := s.me.step.issue
     let n := sizeBytes o.size
     let data (l : Nat) : List Byte := s.dataBytes o.data n l
     (∀ p ∈ [(Instr.stspl, Space.spill), (Instr.stgng, Space.gang), (Instr.stscr, Space.scr), (Instr.stdom, Space.dom)],
       (p.1 o).wellFormed = true → s.me.poisoned (p.1 o) m = none → s.check p.2 .write n (min n 16) m false false (s.ea p.2 o.s0 o.off.toInt) = .ok refs →
       (s.holds.headD false = false → ∃ t, exec (p.1 o) s = .next (t.finish o.e none [] []) ∧ s.stored t refs data ∧ s.sameRegs t ∧ t.lines = s.lines) ∧
       (s.holds.headD false = true → (s.launch (s.gangOf s.me).launch).replay = false →
         ∃ t id, exec (p.1 o) s = .next (t.finish o.e none [] []) ∧ s.sameBytes t ∧ s.sameRegs t ∧ t.lines = s.lines ∧
           (t.heldStores.get id).seenBy s.actor (quadCluster s.me.quad) = true ∧
           ∀ r ∈ refs, ∀ c ∈ r.locs.zip (data r.lane), c ∈ (t.heldStores.get id).cells)) ∧
     ((Instr.sthst o).wellFormed = true → s.me.poisoned (.sthst o) m = none → s.check .host .write n (min n 16) m false false (s.ea .host o.s0 o.off.toInt) = .ok refs →
       ∃ t, exec (.sthst o) s = .next (t.finish o.e none [] []) ∧ s.sameBytes t ∧ s.sameRegs t ∧
         ∀ r ∈ refs, ∀ a b, (a, b) ∈ r.locs.zip (data r.lane) → ∃ id, (t.hostStores.get id).live = true ∧ (t.hostStores.get id).warp = s.actor ∧
           (t.hostStores.get id).cells = (r.locs.zip (data r.lane)).filter (fun c => c.1 / 16 == a / 16))) ∧
  (∀ (o : LdOp) (s : State) (refs : List LaneRef), s.drained → s.sure o.e →
     let m := s.me.step.issue
     let ea := s.ea .scr o.s0 o.off.toInt
     (∀ p ∈ [(Instr.pset, LineState.present), (Instr.pclr, LineState.absent)], (p.1 o).wellFormed = true → s.me.poisoned (p.1 o) m = none →
       s.check .scr .presSet 128 128 m false false ea = .ok refs →
       (s.holds.headD false = false → ∃ t, exec (p.1 o) s = .next (t.finish o.e none [] []) ∧ s.sameBytes t ∧ s.sameButWoken t ∧
         (∀ k ∈ keysOf refs, t.lines.get k = p.2) ∧ (∀ k, k ∉ keysOf refs → t.lines.get k = s.lines.get k) ∧
         (p.2 = .present → ∀ v k, (s.warp v).live = true → (s.warp v).wait = .line k → k ∈ keysOf refs → (t.warp v).woken.any (fun x => x.1 == k) = true)) ∧
       (s.holds.headD false = true → ∃ t id, exec (p.1 o) s = .next (t.finish o.e none [] []) ∧ s.sameBytes t ∧ s.sameRegs t ∧ t.lines = s.lines ∧
         (t.heldStores.get id).warp = s.actor ∧ (t.heldStores.get id).live = true ∧ ∀ k ∈ keysOf refs, (t.heldStores.get id).lineAt k = some p.2)) ∧
     (s.me.woken = [] → (Instr.pqry o).wellFormed = true → s.me.poisoned (.pqry o) m = none → s.check .scr .presQuery 128 128 m false false ea = .ok refs →
       ∃ (t : State) (x : Nat → Nat), exec (.pqry o) s = .next (t.finish o.e (some (lowWords x)) (vecWrites o.v o.d.toNat false m x) []) ∧ s.sameBytes t ∧ s.sameRegs t ∧ t.lines = s.lines ∧
         ∀ r ∈ refs, ∀ k, (r.pieces.flatMap Piece.keys).head? = some k →
           (s.lines.get k = .absent → x r.lane = 0) ∧ (s.lines.get k = .present → x r.lane = 1) ∧ (s.lines.get k = .failed → x r.lane = 2)))

/-- An atomic or a reduction enters the write queue of its memory port with one update for each lane; an atomic's reply is due, and no byte and no register has changed when its operation ends. A reduction on a TSO page has
performed when its operation ends (R207, R208, R239). The model's own readings in it are log entry 19. -/
def Obligations.AtomicsEnterQueue : Prop :=
  ∀ (o : AOp) (s : State) (refs : List LaneRef), s.drained → s.sure o.e →
    let m := s.me.step.issue
    let n := aopBytes o.aop
    let update (sp : Space) (x : PortOp) : Prop := x.live = true ∧ x.warp = s.actor ∧ x.aop = o.aop ∧ x.space = spaceCode sp ∧ x.cluster = quadCluster s.me.quad ∧
      x.lanes = refs.map (fun r => ({ lane := r.lane, loc := (r.locs.headD 0), data := s.src (aopTy o.aop) o.s1 r.lane, cmp := if aopCas o.aop then s.src (aopTy o.aop) o.s2 r.lane else 0 } : LaneOp))
    (∀ p ∈ [(Instr.atmgng, Space.gang), (Instr.atmscr, Space.scr), (Instr.atmdom, Space.dom), (Instr.atmhst, Space.host)],
      (p.1 o).wellFormed = true → s.me.poisoned (p.1 o) m = none → s.check p.2 .atomic n n m false true (s.ea p.2 o.s0 0) = .ok refs →
      ∃ t id rid b0, exec (p.1 o) s = .next (t.finish o.e (some b0) [.reply rid] []) ∧ update p.2 (t.portOps.get id) ∧ (t.portOps.get id).reply = some rid ∧
        (t.me.replies.get rid).base = o.d.toNat ∧ (t.me.replies.get rid).lanes = m ∧ (t.me.replies.get rid).have_ = false ∧ s.sameBytes t ∧ s.sameRegs t) ∧
    (∀ p ∈ [(Instr.redscr, Space.scr), (Instr.reddom, Space.dom)],
      (p.1 o).wellFormed = true → s.me.poisoned (p.1 o) m = none → s.check p.2 .atomic n n m false false (s.ea p.2 o.s0 0) = .ok refs →
      (tsoOf refs = false → ∃ t id, exec (p.1 o) s = .next (t.finish o.e none [] []) ∧ update p.2 (t.portOps.get id) ∧ (t.portOps.get id).reply = none ∧
        s.sameBytes t ∧ s.sameRegs t) ∧
      (tsoOf refs = true → ∃ t : State, exec (p.1 o) s = .next (t.finish o.e none [] []) ∧ t.pendingOps s.actor = false ∧ t.me.regs = s.me.regs))

/-- The memory port performs a queued atomic: its lanes in increasing order, each reading the old value and writing the new; the reply takes the old values. A reduction updates its location likewise. The updates on integers, swap
and compare-and-swap are those of R205 (R205, R207 to R210). The model's own readings in it are log entries 19 and 26. -/
def Obligations.MemoryPortPerforms : Prop :=
  (∀ (a : BitVec 4) (old d cmp : Nat), old < 2 ^ (8 * aopBytes a) → d < 2 ^ (8 * aopBytes a) →
    (a = 0 → aopNew a old d cmp = ((old + d) % 2 ^ 32, 0)) ∧ (a = 1 → aopNew a old d cmp = ((old + d) % 2 ^ 64, 0)) ∧
    (a = 2 → (aopNew a old d cmp).1 = if (BitVec.ofNat 32 d).toInt < (BitVec.ofNat 32 old).toInt then d else old) ∧
    (a = 3 → (aopNew a old d cmp).1 = if (BitVec.ofNat 32 old).toInt < (BitVec.ofNat 32 d).toInt then d else old) ∧
    (a = 4 → (aopNew a old d cmp).1 = min old d) ∧ (a = 5 → (aopNew a old d cmp).1 = max old d) ∧
    (a = 6 → (aopNew a old d cmp).1 = old &&& d) ∧ (a = 7 → (aopNew a old d cmp).1 = old ||| d) ∧ (a = 8 → (aopNew a old d cmp).1 = old ^^^ d) ∧
    ((a = 9 ∨ a = 11) → (aopNew a old d cmp).1 = d) ∧ ((a = 10 ∨ a = 12) → (aopNew a old d cmp).1 = if old = cmp then d else old)) ∧
  ∀ (s : State) (id : Nat),
    let x := s.portOps.get id
    let n := aopBytes x.aop
    let far (l k : LaneOp) : Prop := l.loc + n ≤ k.loc ∨ k.loc + n ≤ l.loc
    s.portFirst id = true →
    (∀ rid, x.reply = some rid → (x.space ≠ 4 ∨ s.hostAtomics = true) → (s.warp x.warp).replies.any (fun e => e.1 == rid) = true →
      x.lanes.Pairwise far → (∀ l ∈ x.lanes, l.lane < 32) → x.lanes.Pairwise (fun l k => l.lane ≠ k.lane) →
      ∃ t, exec (.memportAtomic id) s = .next t ∧ (t.portOps.get id).live = false ∧
        (∀ l ∈ x.lanes, t.read l.loc n = (aopNew x.aop (s.read l.loc n) l.data l.cmp).1 % 2 ^ (8 * n)) ∧
        (∀ a, (∀ l ∈ x.lanes, a < l.loc ∨ l.loc + n ≤ a) → t.byte a = s.byte a) ∧
        (∀ l ∈ x.lanes, ((((t.warp x.warp).replies.get rid).vals.getD 0 []).at l.lane).toNat = s.read l.loc n % 2 ^ 32) ∧
        ((t.warp x.warp).replies.get rid).have_ = true ∧ (∀ v, v ≠ x.warp → t.warp v = s.warp v) ∧ (t.warp x.warp).regs = (s.warp x.warp).regs) ∧
    (x.reply = none → aopFloat x.aop = false → ∀ l, x.lanes = [l] →
      ∃ t, exec (.memportReduction [id]) s = .next t ∧ (t.portOps.get id).live = false ∧
        t.read l.loc n = (aopNew x.aop (s.read l.loc n) l.data 0).1 % 2 ^ (8 * n) ∧
        (∀ a, (a < l.loc ∨ l.loc + n ≤ a) → t.byte a = s.byte a) ∧ (∀ v, t.warp v = s.warp v))

/-- FENCE acts at the commit of its step: an acquire at part scope or wider bumps the generation of the cluster's L1; a read of the remote flags takes the OR of the context's remote-flag registers and clears them. GENBUMP bumps
the generation. A release fence whose warp has writes waiting leaves the warp waiting in its closed step (R211, R213, R214). The model's own readings in it are log entry 19. -/
def Obligations.FencesAndGeneration : Prop :=
  ∀ (s : State) (c : Nat), c = quadCluster s.me.quad → s.closing → s.me.step.buf = [] → (s.cluster c).gen < 65535 →
    (∀ o : FenceOp, o.e = true → s.drained → s.acks = [] →
      ∃ t, exec (.fence o) s = .next t ∧ s.sameBytes t ∧ (∀ l, l < 32 → (t.warp s.actor).vpcAt l = s.pastStep l) ∧
        (t.cluster c).gen = (s.cluster c).gen + (if Order.isAcq o.ord = true ∧ wideScope o.scope = true then 1 else 0) ∧
        (∀ r, (t.warp s.actor).sword r = if o.rf = true ∧ o.v = false ∧ r = o.d.toNat then BitVec.ofNat 32 (s.remoteOr (s.ckOf s.me)) else s.me.sword r) ∧
        t.remoteOr (s.ckOf s.me) = if o.rf then 0 else s.remoteOr (s.ckOf s.me)) ∧
    (∀ o : NOp, o.e = true → ∃ t, exec (.genbump o) s = .next t ∧ s.committed t [] s.pastStep ∧ (t.cluster c).gen = (s.cluster c).gen + 1) ∧
    (∀ o : FenceOp, o.e = true → Order.isRel o.ord = true → (s.ownOps s.actor).any (· < s.nextUid) = true →
      ∃ t, exec (.fence o) s = .next t ∧ (t.warp s.actor).wait = .fence ∧ (t.warp s.actor).step.closed = true ∧ (t.warp s.actor).regs = s.me.regs ∧ s.sameBytes t)

/-- The ends of waits. LOAD_REPLY writes the words that have come into their lanes and leaves the rest due; a failed reply tags the words instead. PARK_WAKE, REJECT_RETRY and SLEEP_DEADLINE make their warp ready; FENCE_SATISFIED
commits the closed step; ISSUE_AGE_GUARD puts the longest waiting warp first; DOMAIN_ACKNOWLEDGEMENT ORs the flags into the fabric's register; CODE_PAGE_VERIFIED compares the page's hash (R31, R78, R185, R190, R211, R213, R263,
R284, R350). The model's own readings in it are log entries 5 and 31. -/
def Obligations.WaitsEnd : Prop :=
  ∀ (s : State) (u : Nat),
    let w := s.warp u
    let ready : State := s.updWarp u (fun w => { w with wait := .ready })
    w.live = true → s.frozen w.gang = false → s.midStep w.gang = false → (s.launch (s.gang w.gang).launch).replay = false →
    (∀ (id : Nat) (lanes : Mask),
      let r := w.replies.get id
      let hit := r.lanes &&& lanes
      w.replies.any (fun e => e.1 == id) = true → r.held = true → r.have_ = true → hit ≠ 0#32 → r.vec = true →
      ∃ t, exec (.loadReply u id lanes) s = .next t ∧
        (∀ x l, l < 32 → (t.warp u).vword x l = if r.base ≤ x ∧ x < r.base + r.n ∧ hit.has l = true ∧ r.fails.get l = 0 then (r.vals.getD (x - r.base) []).at l else w.vword x l) ∧
        (∀ j l, j < r.n → l < 32 → hit.has l = true → r.fails.get l ≠ 0 →
          (t.warp u).regs.vtag.get (32 * (r.base + j) + l) = ({ cause := r.fails.get l, addr := r.addrs.at l } : Tag)) ∧
        (t.warp u).regs.scal = w.regs.scal ∧
        ((∃ l, l < 32 ∧ hit.has l = true ∧ r.fails.get l = 0) → (t.warp u).sp.flags = w.sp.flags ||| r.flags) ∧
        ((∀ l, l < 32 → hit.has l = true → r.fails.get l ≠ 0) → (t.warp u).sp.flags = w.sp.flags) ∧
        ((t.warp u).replies.get id).lanes = r.lanes &&& ~~~lanes ∧ s.sameBytes t) ∧
    (∀ (id : Nat) (lanes : Mask),
      let r := w.replies.get id
      w.replies.any (fun e => e.1 == id) = true → r.held = true → r.have_ = true → r.lanes &&& lanes ≠ 0#32 → r.vec = false →
      ∃ t, exec (.loadReply u id lanes) s = .next t ∧ (t.warp u).regs.vec = w.regs.vec ∧
        (∀ j, j < r.n → j < r.vals.length → (t.warp u).sword (r.base + j) = (r.vals.getD j []).at 0) ∧ ((t.warp u).replies.get id).lanes = 0#32 ∧ s.sameBytes t) ∧
    (∀ k, w.wait = .line k → w.woken.any (fun x => x.1 == k) = true → exec (.parkWake u) s = .next ready) ∧
    (∀ b, w.wait = .batch b → (∀ c ∈ w.batches.get b, c.done = true) → exec (.parkWake u) s = .next ready) ∧
    (∀ c, s.oldestRejected c = some u → exec (.rejectRetry c) s = .next ready) ∧
    (∀ sec ns, w.wait = .sleep sec ns → s.deadlinePassed sec ns = true → exec (.sleepDeadline u) s = .next ready) ∧
    (∀ q, s.guardPick q = some u → exec (.issueAgeGuard q) s = .next (s.updWarp u (fun w => { w with urgent := true }))) ∧
    (∀ ord sc n, w.wait = .fence → w.step.closed = true → w.step.buf = [.fence ord sc false none n] → w.owes = [] → s.seenHost u = [] → w.step.conds = [] → s.fencesOk u = true → w.stepping = false → w.tryPort = none →
      w.tryHeap = none → w.unexited ≠ 0#32 → (s.gang w.gang).halted = false → (s.gang w.gang).wdPend = false →
      s.heldStores.all (fun e => !e.2.seenBy u (quadCluster w.quad)) = true →
      ∃ t, exec (.fenceSatisfied u) s = .next t ∧ (t.warp u).wait = .ready ∧ (t.warp u).step = {} ∧ (t.warp u).sp.steps = w.sp.steps + 1 ∧ (t.warp u).regs = w.regs ∧ s.sameBytes t) ∧
    (∀ a, (s.acks.get a).live = true → ∃ t, exec (.domainAcknowledgement a) s = .next t ∧ (t.acks.get a).live = false ∧ s.sameBytes t ∧
      t.remoteOr (s.acks.get a).ck = s.remoteOr (s.acks.get a).ck ||| (s.acks.get a).flags % 128 ∧ (∀ v, t.warp v = s.warp v)) ∧
    (∀ c page loc tso, (s.ctx c).live = true → (s.ctx c).codePages.get page = .unverified → page < 0xF000 →
      s.translateAt controlUnit (c / 64) (c % 64) .code .fetch true (65536 * page) = .ok loc tso →
      ∃ t, exec (.codePageVerified c page) s = .next t ∧ s.sameBytes t ∧ (∀ v, t.warp v = s.warp v) ∧
        (Config.sha384 (s.bytes loc 65536) = (s.ctx c).digests.get page → (t.ctx c).codePages.get page = .verified) ∧
        (Config.sha384 (s.bytes loc 65536) ≠ (s.ctx c).digests.get page → (t.ctx c).codePages.get page = .failed))

/-! ### Barriers and signals (R265, R269 to R273, R298) -/

/-- BARSYNC and BARARV count one arrival; while others are missing or bytes are due, BARSYNC waits; the arrival that makes the count, with balance 0, ends the phase: the phase number rises, count and arrivals are 0, and the warps
that wait at the barrier are ready; with a balance above 0 it breaks the barrier, and BARSYNC takes BARRIER_BROKEN. An arrival that R271 refuses raises BARRIER_MISMATCH with its reason. BARBYTES lowers the balance; BARQRY gives
the pair of R273 (R270 to R273). SIGNAL ORs its word into the wake register of a resident port, which takes SEQ and SENDER when it was clear, waits in the miss buffer for a port that is not resident, or adds an entry to the
mailbox of the control cores; a destination with reserved bits set, a port that is not valid or is quarantined, or a signal that is not allowed raises its cause (R265, R295, R298, R310). The model's own readings in it are log
entries 24 and 37. -/
def Obligations.BarriersAndSignals : Prop :=
  (∀ (s : State) (o : NOp), s.closing → s.me.step.buf = [] → o.e = true → s.drained → s.me.execSet o.g ≠ 0#32 →
     (∀ v ∈ (s.gangOf s.me).warps, ∀ c p a i m, (s.warp v).wait ≠ .trap c p a i m) →
     let g := s.me.gang
     let m := s.me.execSet o.g
     let b := (s.srcW o.s0 0).toNat % 32
     let x := (s.gang g).barrier b
     let n := (s.srcW o.s1 0).toNat
     let live := (s.liveWarps g).length
     let n' := if b = 0 ∧ n = 0 then live else n
     (((b = 0 ∧ n' = live) ∨ (b ≠ 0 ∧ 0 < n ∧ n ≤ (s.gang g).warps.length)) → (x.count ≠ 0 → n' = x.count ∧ x.arrived ≠ x.count) →
       -2147483648 ≤ x.balance → x.balance ≤ 2147483647 →
       ((x.arrived + 1 ≠ n' ∨ x.balance < 0) →
         (s.readable (.barsync o) o.g → ∃ t, exec (.barsync o) s = .next t ∧ (t.warp s.actor).wait = .barrier b m x.phase s.me.stepEnd ∧ ((t.gang g).barrier b).arrived = x.arrived + 1 ∧
           ((t.gang g).barrier b).count = n' ∧ ((t.gang g).barrier b).phase = x.phase ∧ (∀ l, l < 32 → (t.warp s.actor).vpcAt l = s.pastStep l) ∧ s.sameBytes t) ∧
         (s.readable (.bararv o) o.g → ∃ t, exec (.bararv o) s = .next t ∧ (t.warp s.actor).wait = .ready ∧ ((t.gang g).barrier b).arrived = x.arrived + 1 ∧
           ((t.gang g).barrier b).count = n' ∧ ((t.gang g).barrier b).phase = x.phase ∧ (∀ l, l < 32 → (t.warp s.actor).vpcAt l = s.pastStep l) ∧ s.sameBytes t)) ∧
       (x.arrived + 1 = n' → x.balance = 0 → ∀ p ∈ [Instr.barsync, Instr.bararv], s.readable (p o) o.g →
         ∃ t, exec (p o) s = .next t ∧ (t.warp s.actor).wait = .ready ∧ ((t.gang g).barrier b).phase = x.phase + 1#32 ∧ ((t.gang g).barrier b).count = 0 ∧
           ((t.gang g).barrier b).arrived = 0 ∧ ((t.gang g).barrier b).broken = false ∧ (∀ l, l < 32 → (t.warp s.actor).vpcAt l = s.pastStep l) ∧
           (∀ v ∈ (s.gang g).warps, ∀ mv ph e, (s.warp v).wait = .barrier b mv ph e → (t.warp v).wait = .ready) ∧ s.sameBytes t) ∧
       (x.arrived + 1 = n' → 0 < x.balance → s.readable (.barsync o) o.g → ∃ t, exec (.barsync o) s = .next t ∧
         (t.warp s.actor).trapped cBARRIER_BROKEN s.me.stepEnd x.phase (BitVec.ofNat 32 (256 * b + 1)) m ∧
         ((t.gang g).barrier b).phase = x.phase + 1#32 ∧ ((t.gang g).barrier b).broken = true ∧ ((t.gang g).barrier b).balance = 0 ∧ s.sameBytes t)) ∧
     (∀ r, ((r = 2 ∧ ((b = 0 ∧ n' ≠ live) ∨ (b ≠ 0 ∧ (n = 0 ∨ (s.gang g).warps.length < n)))) ∨
         (((b = 0 ∧ n' = live) ∨ (b ≠ 0 ∧ 0 < n ∧ n ≤ (s.gang g).warps.length)) ∧
           ((r = 1 ∧ x.count ≠ 0 ∧ n' ≠ x.count) ∨ (r = 4 ∧ x.count ≠ 0 ∧ n' = x.count ∧ x.arrived = x.count)))) →
       ∀ p ∈ [Instr.barsync, Instr.bararv], s.readable (p o) o.g → ∃ t, exec (p o) s = .next t ∧
         (t.warp s.actor).trapped cBARRIER_MISMATCH s.me.step.first (BitVec.ofNat 32 x.count) (BitVec.ofNat 32 (256 * b + r)) m ∧ s.sameBytes t) ∧
     (n < 2 ^ 31 → s.readable (.barbytes o) o.g → -2147483648 ≤ x.balance - n → x.balance ≤ 2147483647 → (x.count = 0 ∨ x.arrived ≠ x.count) →
       ∃ t, exec (.barbytes o) s = .next t ∧ ((t.gang g).barrier b) = { x with balance := x.balance - n } ∧ s.committed t [] s.pastStep) ∧
     (s.readable (.barqry o) o.g → scalarResult (.barqry o) o s true
       ((x.balance % 2 ^ 32).toNat * 2 ^ 32 + (if x.broken then 2 ^ 31 else 0) + x.phase.toNat % 128 * 2 ^ 24 + x.count % 4096 * 2 ^ 12 + x.arrived % 4096))) ∧
  (∀ (s : State) (o : NOp), s.closing → o.e = true → s.drained → s.me.execSet o.g ≠ 0#32 → s.readable (.signal o) o.g →
     let w := s.me
     let ck := s.ckOf w
     let d := (s.srcW o.s0 0).toNat
     let x := s.srcW o.s1 0
     let k := portKey ck d
     let p := s.port k
     let trap (cause : Nat) (info : Nat) : Prop := ∃ t, exec (.signal o) s = .next t ∧
       (t.warp s.actor).trapped cause w.step.first 0#32 (BitVec.ofNat 32 info) (w.execSet o.g) ∧ s.sameBytes t
     (d < 65536 → p.valid = true → p.quar = false → p.sigen = true → p.resident = true → x ≠ 0#32 →
       ∃ t, exec (.signal o) s = .next t ∧ s.committed t [] s.pastStep ∧ (t.port k).wake = p.wake ||| x ∧
         (p.wake = 0#32 → (t.port k).wakeSeq = (s.part (ck / 64)).seqctr ∧ (t.port k).wakeSender = w.wid % 2048 + 2048 * (w.role % 4)) ∧ (t.port k).msgs = p.msgs) ∧
     (d < 65536 → p.valid = true → p.quar = false → p.sigen = true → p.resident = false → x ≠ 0#32 → s.missCount p.home < 1024 → s.olderRejected kENGINE = false →
       ∃ t, exec (.signal o) s = .next t ∧ s.committed t [] s.pastStep ∧
         (t.port k).buffered = p.buffered ++ [{ kind := 8, sender := w.wid % 2048 + 2048 * (w.role % 4), payload := [x] }] ∧ (t.port k).wake = p.wake) ∧
     (d = 2 ^ 31 → (w.mode = .sup ∨ (s.ctx ck).mboxUser = true) → (s.part (s.gangOf w).part).mailbox.length < s.caps.mailbox → s.olderRejected kENGINE = false →
       ∃ t, exec (.signal o) s = .next t ∧ s.committed t [] s.pastStep ∧
         (t.part (s.gangOf w).part).mailbox = (s.part (s.gangOf w).part).mailbox ++ [{ ctx := (s.gangOf w).ctx, warp := w.wid, x := x, seq := (s.part (s.gangOf w).part).seqctr }]) ∧
     (d / 65536 % 2 ^ 15 ≠ 0 → trap cPORT_INVALID (65536 + d % 65536)) ∧
     (d < 65536 → p.valid = false → trap cPORT_INVALID (2 * 65536 + d)) ∧
     (d < 65536 → p.valid = true → p.quar = true → trap cPORT_INVALID (3 * 65536 + d)) ∧
     (d < 65536 → p.valid = true → p.quar = false → p.sigen = false → trap cSIGNAL_DENIED d) ∧
     (d = 2 ^ 31 → w.mode ≠ .sup → (s.ctx ck).mboxUser = false → trap cSIGNAL_DENIED 0))

/-! ### The matrix units (R146 to R166) -/

/-- The matrix instructions complete on owned members with room in their queues. MGROUP sets Q. ACCZ, ACCFREE and ACCWR enter one operation for each member they name. MMA enters one for each member, with A, B and the scales as
they stand, and raises SCALE_NAN for the lanes with such a scale. ACCRD gives the rows of a segment rounded to its format, with the flags of the rounding and INVALID for a signalling NaN; ACCLD enters what it reads (R147, R149 to
R152, R156, R157, R160 to R164). The model's own readings in it are log entries 27 and 28. -/
def Obligations.MatrixInstructions : Prop :=
  ∀ (o : XOp) (s : State), s.drained → s.sure o.e → s.olderRejected kENGINE = false →
    let w := s.me
    let m0 := w.step.issue
    let mq (i : Nat) : Quad := s.quad (s.memberQuad w i)
    let mine (i : Nat) : Prop := i < w.q ∧ (mq i).owner = some (s.gangOf w).ctx ∧ (mq i).queue.length < 16
    let apart : Prop := ∀ i j, i < w.q → j < w.q → s.memberQuad w i = s.memberQuad w j → i = j
    let clean (i : Nat) (ks : List Nat) : Prop := ∀ k ∈ ks, (mq i).poisonedAt k = false
    let added (t : State) (i : Nat) (x : MatOp) : Prop := (t.quad (s.memberQuad w i)).queue = (mq i).queue ++ [x]
    let c := quadCluster w.quad
    let f := Fmt.ofCode o.afmt
    let e := accBytes o.afmt
    let view (sp : Space) (refs : List LaneRef) : State := (if tsoOf refs then (s.fenced s.actor).bumpGen c else s.fenced s.actor).fillFor c sp refs
    ((Instr.mgroup o).wellFormed = true → s.gangQuad w + o.q ≤ 4 * (s.gangOf w).cores → (s.gangQuad w + o.q - 1) / 4 - s.gangQuad w / 4 ≤ 2 →
      exec (.mgroup o) s = .next (s.finish o.e none [.mgroup o.q] []) ∧
      (s.closing → o.e = true → ∃ t, exec (.mgroup o) s = .next t ∧ (t.warp s.actor).q = o.q ∧ s.committed t [] s.pastStep)) ∧
    (∀ p ∈ [(Instr.accz, true), (Instr.accfree, false)], (p.1 o).wellFormed = true → (o.all = false → o.member < w.q) → apart →
      (∀ i, (if o.all then i < w.q else i = o.member) → mine i) →
      ∃ t, exec (p.1 o) s = .next (t.finish o.e none [] []) ∧ s.sameBytes t ∧ s.sameRegs t ∧ ∀ i, (if o.all then i < w.q else i = o.member) → added t i (.fill o.segmask p.2)) ∧
    ((Instr.accwr o).wellFormed = true → w.poisoned (.accwr o) m0 = none → mine o.member → (m0 = Mask.full ∨ clean o.member [o.seg]) →
      ∃ t codes, exec (.accwr o) s = .next (t.finish o.e none [] []) ∧ s.sameBytes t ∧ s.sameRegs t ∧ added t o.member (.put o.seg m0 codes) ∧
        ∀ l k, l < 32 → k < 32 → (codes.getD l []).getD k 0 =
          (round .f32e .rne false (decodeVal f ((w.vword (o.vbase + k * e / 4) l).toNat / 2 ^ (8 * e * (k % (4 / e))) % 2 ^ (8 * e)))).1) ∧
    ((Instr.accrd o).wellFormed = true → mine o.member → clean o.member [o.seg] →
      let val (l k : Nat) : XReal := decodeVal .f32e (((mq o.member).row o.seg l).getD k 0)
      ∃ (xs : List (Nat → Nat)) (fl : Nat → Nat), exec (.accrd o) s = .next ((s.matDone (s.memberQuad w o.member)).finish o.e (some (lowWords (xs.headD (fun _ => 0)))) (groupWrites o.v o.d.toNat false m0 xs) (condsOf w.step.idx m0 fl)) ∧
        xs.length = accRegs o.afmt ∧
        (∀ l k, l < 32 → k < 32 → (xs.getD (k * e / 4) (fun _ => 0)) l / 2 ^ (8 * e * (k % (4 / e))) % 2 ^ (8 * e) = (round f o.rnd o.sat (val l k)).1) ∧
        ∀ l, l < 32 → fl l = (List.range 32).foldl (fun a k => a ||| ((round f o.rnd o.sat (val l k)).2 ||| if (val l k).isSig then fINVALID else 0)) 0) ∧
    (let sh := XOp.blkWord w o 0
     let ar := (XOp.blkWord w o 1).toNat
     let nk := 32 * shKb sh
     let sp : Space := if o.bsp then .scr else .gang
     let xs : List MatAcc := (List.range (shCb sh)).flatMap (fun m => (List.range nk).map (fun k => { row := 0, va := mmaBaddr w o m k, len := 32 * mmaBytes o.bfmt }))
     ∀ refs, (Instr.mma o).wellFormed = true → w.poisoned (.mma o) m0 = none → mmaShape w o = none →
      w.poisonIn m0 ((mmaReads w o).take (if o.scl then 2 else 1)) = none → w.poisonIn Mask.full ((mmaReads w o).drop 2) = none →
      apart → (XOp.blkWord w o 4).toNat < 2 ^ 24 → (∀ x ∈ xs, x.va % 128 + x.len ≤ 128) →
      (∀ i, i < shCb sh → mine i ∧ clean i ((List.range (if fmtCplx o.afmt then 2 * shRb sh else shRb sh)).map (shSeg0 sh + ·))) →
      (w.sp.fpctl.getLsbD 7 = false ∨ mmaScaleNan w o = 0#32) → s.attached (s.ckOf w) = false → s.matCheck sp .read false true xs = .ok refs →
      ∃ t, exec (.mma o) s = .next (t.finish o.e none [] []) ∧ s.sameBytes t ∧ s.sameRegs t ∧
        t.me.step.conds = w.step.conds ++ (if mmaScaleNan w o = 0#32 then [] else [{ op := w.step.idx, bit := 7, lanes := mmaScaleNan w o }]) ∧
        (∀ l, l < 32 → ((mmaScaleNan w o).has l = true ↔ o.scl = true ∧
          ((m0.has l = true ∧ ∃ r kb, r < shRb sh ∧ kb < shKb sh ∧ byteOf (w.vword (ar / 256 % 256 + r) l) (o.sba + kb) = 255) ∨
            ∃ m kb, m < shCb sh ∧ kb < shKb sh ∧ byteOf (w.vword (ar / 65536 % 256 + m) l) (o.sbb + kb) = 255))) ∧
        ∀ i, i < shCb sh → ∃ j, added t i (.mma j) ∧ j.af = o.afmt ∧ j.bf = o.bfmt ∧ j.acc = shAcc sh ∧ j.rb = shRb sh ∧ j.kb = shKb sh ∧ j.seg0 = shSeg0 sh ∧ j.rows = m0 ∧ j.scl = o.scl ∧
          j.sba = o.sba ∧ j.sbb = o.sbb ∧
          (∀ k, k < mmaRa o.afmt * shRb sh * shKb sh → j.a[k]? = some (w.vreg (ar % 256 + k))) ∧
          (∀ k, k < nk → j.b.data[k]? = some ((view sp refs).laneBytes s.actor c sp (refs.getD (nk * i + k) default))) ∧
          (o.scl = true → j.sb = w.vreg (ar / 65536 % 256 + i) ∧ ∀ r, r < shRb sh → j.sa[r]? = some (w.vreg (ar / 256 % 256 + r)))) ∧
    (∀ refs, (Instr.accld o).wellFormed = true → w.poisoned (.accld o) m0 = none → mine o.member → accMisaligned w o = none →
      (o.afmt = 0x0E#6 ∨ m0 = Mask.full ∨ clean o.member [o.seg]) → s.attached (s.ckOf w) = false →
      s.matCheck (XOp.spOf o) .read true true (accAccesses w o) = .ok refs →
      ∃ t x, exec (.accld o) s = .next (t.finish o.e none [] []) ∧ s.sameBytes t ∧ s.sameRegs t ∧
        added t o.member (.load o.seg (if o.afmt = 0x0E#6 then Mask.full else m0) o.afmt x) ∧
        x.data = refs.map ((view (XOp.spOf o) refs).laneBytes s.actor c (XOp.spOf o)))

/-- A matrix queue executes in order: fills, rows and loads write their segments, a loaded NaN as the default one; an MMA replaces each element of a row, or each real and imaginary pair, by the block steps of its column blocks in
order, from the element, or +0 without ACC, and the 32 products of A's row and B's column, scaled where it scales, an integer product having no negative zero; the completion takes a draw of the sequence counter, and the memory
that an MMA has read stands for its other members. ACCST stores the rows of a segment rounded to its format; ACCOWN gives a quadrant to a context and zeroes it; ACCSPILL stores, and ACCFILL restores, segment images (R151 to R155,
R157, R158, R162 to R165, R237). The model's own readings in it are log entries 27 and 28. -/
def Obligations.MatrixSegments : Prop :=
  (∀ (s : State) (q : Nat) (x : MatOp) (rest : List MatOp), (s.quad q).queue = x :: rest →
    ∃ t, exec (.matrixQueueExecute q) s = .next t ∧ s.sameBytes t ∧ (∀ v, t.warp v = s.warp v) ∧ (t.quad q).queue.length = rest.length ∧ (x.src = none → (t.quad q).queue = rest) ∧
      (∀ p, p ≠ q → { t.quad p with queue := (s.quad p).queue } = s.quad p ∧ (t.quad p).queue.length = (s.quad p).queue.length ∧ (x.src = none → t.quad p = s.quad p)) ∧
      (t.part (s.quadPart q)).seqctr = (s.part (s.quadPart q)).seqctr + 1#32 ∧
      (∀ k r, r < 32 → k ∉ x.segs → (t.quad q).row k r = (s.quad q).row k r) ∧
      (∀ m b, x = .fill m b → ∀ k ∈ segsOf m, ∀ r, r < 32 → (t.quad q).row k r = List.replicate 32 0) ∧
      (∀ k m codes, x = .put k m codes → (∀ r, r < 32 → (codes.getD r []).length = 32) → ∀ r, r < 32 →
        (t.quad q).row k r = if m.has r then codes.getD r [] else (s.quad q).row k r) ∧
      (∀ k m f y, x = .load k m f y → ∀ r, r < 32 →
        let i := (m.lanes.filter (· < r)).length
        let e := accBytes f
        let code (n : Nat) : Nat := if f = 0x0E#6 then (imageRow (y.data.getD (2 * i) []) (y.data.getD (2 * i + 1) [])).getD n 0
          else bytesNat (((y.data.getD i []).drop (e * n)).take e)
        (t.quad q).row k r = if m.has r then (List.range 32).map (fun n => (round .f32e .rne false (decodeVal (Fmt.ofCode f) (code n))).1) else (s.quad q).row k r) ∧
      (∀ j, x = .mma j → ∀ r l n, r < j.rb → l < 32 → n < 32 → j.rows.has l = true →
        let fa := Fmt.ofCode j.af
        let fb := Fmt.ofCode j.bf
        let a (kb k : Nat) : Nat := j.aCode (mmaRa j.af * (r * j.kb + kb)) l k
        let b (kb k : Nat) : Nat := (j.bCodes (32 * kb + k)).getD n 0
        (fmtCplx j.af = false → fmtCplx j.bf = false →
          let term (kb k : Nat) : XReal :=
            let p := (xmul (decodeVal fa (a kb k)) (decodeVal fb (b kb k))).1
            let p := if (j.af = 0x08#6 ∨ j.af = 0x09#6) ∧ p.isZero = true then .fin false 0 1 else p
            if j.scl then (xmul (scaleVal (byteOf ((j.sa.getD r []).at l) (j.sba + kb))) (xmul (scaleVal (byteOf (j.sb.at n) (j.sbb + kb))) p).1).1 else p
          ((t.quad q).row (j.seg0 + r) l).getD n 0 = (List.range j.kb).foldl (fun c kb => blockStep (decodeVal .f32e c :: (List.range 32).map (term kb)))
            (if j.acc then ((s.quad q).row (j.seg0 + r) l).getD n 0 else 0)) ∧
        (fmtCplx j.af = true → fmtCplx j.bf = true →
          let re (kb k : Nat) : List XReal := [(xmul (decodeVal fa (a kb k % 65536)) (decodeVal fb (b kb k % 65536))).1,
            (xmul (decodeVal fa (a kb k / 65536)) (decodeVal fb (b kb k / 65536))).1.neg]
          let im (kb k : Nat) : List XReal := [(xmul (decodeVal fa (a kb k % 65536)) (decodeVal fb (b kb k / 65536))).1,
            (xmul (decodeVal fa (a kb k / 65536)) (decodeVal fb (b kb k % 65536))).1]
          let run (g : Nat → Nat → List XReal) (k0 : Nat) : Prop :=
            ((t.quad q).row k0 l).getD n 0 = (List.range j.kb).foldl (fun c kb => blockStep (decodeVal .f32e c :: (List.range 32).flatMap (g kb)))
              (if j.acc then ((s.quad q).row k0 l).getD n 0 else 0)
          run re (j.seg0 + 2 * r) ∧ run im (j.seg0 + 2 * r + 1)))) ∧
  ∀ (s : State) (e : Bool), s.drained → s.sure e → s.olderRejected kENGINE = false → s.attached (s.ckOf s.me) = false →
    let w := s.me
    let c := quadCluster w.quad
    (∀ (o : NOp) (q : Nat), (Instr.accown o).wellFormed = true → o.e = e → s.readable (.accown o) o.g → s.selectQuad w (s.srcW o.s0 0) = .ok q →
      ((s.srcW o.s1 0).toNat ≤ 63 ∨ s.srcW o.s1 0 = 0xFFFFFFFF#32) →
      ∃ t, exec (.accown o) s = .next (t.finish o.e (some (Lanes.splat (ownerWord (s.quad q).owner)))
          (scalWrites o.v o.d.toNat true (w.execSet o.g) ((ownerWord (s.quad q).owner).toNat + 2 ^ 32 * (s.quad q).live)) []) ∧
        s.sameBytes t ∧ s.sameRegs t ∧ (∀ p, p ≠ q → t.quad p = s.quad p) ∧
        (s.srcW o.s1 0 = ownerWord (s.quad q).owner → t.quad q = s.quad q) ∧
        (s.srcW o.s1 0 ≠ ownerWord (s.quad q).owner → (t.quad q).live = 0 ∧ (∀ k r, (t.quad q).row k r = List.replicate 32 0) ∧
          (t.quad q).owner = if s.srcW o.s1 0 = 0xFFFFFFFF#32 then none else some (s.srcW o.s1 0).toNat)) ∧
    (∀ (o : XOp) (refs : List LaneRef), (Instr.accst o).wellFormed = true → o.e = e → w.poisoned (.accst o) w.step.issue = none → o.member < w.q →
      accMisaligned w o = none → s.holds.headD false = false →
      let q := s.quad (s.memberQuad w o.member)
      let code (l k : Nat) : Nat := (round (Fmt.ofCode o.afmt) o.rnd o.sat (decodeVal .f32e ((q.row o.seg l).getD k 0))).1
      q.owner = some (s.gangOf w).ctx → q.poisonedAt o.seg = false → q.queue.length < 16 → w.sp.fpctl = 0#32 →
      s.matCheck (XOp.spOf o) .write true false (accAccesses w o) = .ok refs → (refLocs refs).Nodup →
      ∃ t, exec (.accst o) s = .next (t.finish o.e none [] []) ∧ s.sameBytesBut t (refLocs refs) ∧ s.sameRegs t ∧
        (o.afmt ≠ 0x0E#6 → ∀ r ∈ refs, ∀ k n, k < 32 → n < accBytes o.afmt → ∀ a, r.locs[accBytes o.afmt * k + n]? = some a →
          t.byte a = BitVec.ofNat 8 (code r.lane k / 2 ^ (8 * n))) ∧
        (o.afmt = 0x0E#6 → ∀ n k a, n < 32 →
          ((refs.getD (2 * n) default).locs[k]? = some a → k < 128 → t.byte a = (mainBytes ((List.range 32).map (code n))).getD k 0#8) ∧
          ((refs.getD (2 * n + 1) default).locs[k]? = some a → k < 8 → t.byte a = (extBytes ((List.range 32).map (code n))).getD k 0#8))) ∧
    (∀ (o : XOp) (q : Nat) (refs : List LaneRef), o.e = e → s.selectQuad w (XOp.blkWord w o 0) = .ok q → (XOp.blkWord w o 1).toNat % 128 = 0 → (XOp.blkWord w o 2).toNat < 64 →
      let a := (XOp.blkWord w o 1).toNat
      let ks := (XOp.blkWord w o 2).toNat
      let view : State := (if tsoOf refs then (s.fenced s.actor).bumpGen c else s.fenced s.actor).fillFor c .scr refs
      ((Instr.accspill o).wellFormed = true → w.poisoned (.accspill o) w.step.issue = none → (s.quad q).segPoison = 0 → (s.quad q).live < 64 →
        s.matCheck .scr .supWrite false false (segLines a (ks &&& (s.quad q).live)) = .ok refs → (refLocs refs).Nodup →
        ∃ t, exec (.accspill o) s = .next (t.finish o.e (some (Lanes.splat (BitVec.ofNat 32 (ks &&& (s.quad q).live)))) (scalWrites o.v o.d.toNat false w.step.issue (ks &&& (s.quad q).live)) []) ∧
          s.sameBytesBut t (refLocs refs) ∧ s.sameRegs t ∧
          ∀ n j k l, (segsOf (ks &&& (s.quad q).live))[n]? = some k → j < 34 → l < 128 → ∀ loc, (refs.getD (34 * n + j) default).locs[l]? = some loc →
            t.byte loc = ((s.quad q).image k).getD (128 * j + l) 0#8) ∧
      ((Instr.accfill o).wellFormed = true → w.poisoned (.accfill o) w.step.issue = none → (∀ k ∈ segsOf ks, (s.quad q).poisonedAt k = false) →
        s.matCheck .scr .supRead false true (segLines a ks) = .ok refs →
        ∃ t, exec (.accfill o) s = .next (t.finish o.e (some (Lanes.splat (BitVec.ofNat 32 ks))) (scalWrites o.v o.d.toNat false w.step.issue ks) []) ∧ s.sameBytes t ∧ s.sameRegs t ∧
          ∀ n k, (segsOf ks)[n]? = some k → ∀ r, r < 32 → (t.quad q).row k r =
            (imageRows (((refs.drop (34 * n)).take 34).flatMap (view.laneBytes s.actor c .scr))).getD r []))

/-! ### Copies and collectives (R193 to R203, R215 to R218) -/

/-- COPY and COLL, their checks passed, enter the engine with their template, layout and origin as they stand; a COPY from HBM to scratchpad makes the lines of its footprint absent, a COLL those of its destination. No byte changes
yet, and a reply takes the status pair's registers. CSEAL gives the unsealed copies to a batch; CWAIT gives the word of a batch that is complete and else waits; CPOLL reads it without waiting (R194 to R198, R202, R203, R216). The
model's own readings in it are log entries 24 and 29. A tile names each of its elements: near and far byte addresses from the layout, the origin and the template, and whether it lies in bounds; a swizzle XORs bits [6:4] of the
near address (R195, R196). -/
def Obligations.CopyInstructions : Prop :=
  (∀ (s : State),
     let w := s.me
     let m := w.step.issue
     let ck := s.ckOf w
     let held (t : State) (v : Bool) (d : BitVec 9) (rep : Nat) : Prop :=
       let y := t.me.replies.get rep
       y.vec = false ∧ y.base = d.toNat ∧ y.n = (if v then 0 else 2) ∧ y.have_ = false
     let others (t : State) : Prop := s.sameBytes t ∧ t.me.regs = w.regs ∧ ∀ v, v ≠ s.actor → t.warp v = s.warp v
     (∀ (o : XOp) (n : BitVec 9), o.s0 = .scal n → s.drained → s.sure o.e → s.attached ck = false → s.engineLoad (quadSection w.quad) < s.caps.copyQ → s.olderRejected kENGINE = false →
       let r (k : Nat) : Word := w.sword (n.toNat + k)
       (let tm := (s.ctx ck).tmpls.get (r 1).toNat
        let es := tileElems tm [r 2, r 3, r 4] [r 5, r 6, r 7, r 8]
        let gang := 2 ≤ tmDir tm
        let inward := tmDir tm % 2 = 0
        let vas := es.map Elem.near
        (Instr.copy o).wellFormed = true → w.poisoned (.copy o) m = none → (r 0).toNat < 16 → copyReason (r 1) (r 9) tm = none → (r 4).toNat / 2 ^ 24 < 4 →
        (∀ v ∈ vas, v + elemBytes (tmNear tm) ≤ if gang then (s.gangOf w).gangSize else 2 ^ 32) → (¬ gang → s.pageFail (if inward then .write else .read) vas = none) →
        s.copiesOut s.actor < 256 →
        ∃ t id rep, exec (.copy o) s = .next (t.finish o.e (some []) [.reply rep] []) ∧ others t ∧ held t o.v o.d rep ∧ t.me.unsealed = w.unsealed ++ [{ copy := id }] ∧
          (let j := t.copies.get id
           j.live = true ∧ j.warp = s.actor ∧ j.gang = w.gang ∧ j.chan = (r 0).toNat ∧ j.tidx = (r 1).toNat ∧ j.tmpl = tm ∧ j.layout = [r 2, r 3, r 4] ∧ j.origin = [r 5, r 6, r 7, r 8] ∧ j.reply = rep ∧
           j.landed = [] ∧ j.early = [] ∧ j.bar = (if r 9 = 0xFFFFFFFF#32 then none else some (r 9).toNat) ∧
           (tmDir tm = 0 → ∀ k, t.lines.get k = if ∃ e ∈ es, j.nearLoc (128 * (e.near / 128)) / 128 = k then .absent else s.lines.get k) ∧ (tmDir tm ≠ 0 → t.lines = s.lines))) ∧
       (let c (k : Nat) : Nat := (r k).toNat
        let l := s.launch (s.gangOf w).launch
        let ranks := s.collRanks l.ens
        let db := c 4 * elemBytes o.afmt * (if c 0 % 16 = 2 then ranks.length else 1)
        let sb := c 4 * elemBytes o.afmt * (if c 0 % 16 = 1 then ranks.length else 1)
        (Instr.coll o).wellFormed = true → w.poisoned (.coll o) m = none → collReason o ranks (c 0) (c 2) (c 3) (c 4) (c 5) = none →
        (c 0 % 16 ≠ 3 ∨ c 0 / 256 % 64 = (if l.ens = none then 0 else l.rank) → s.pageFail .read (rangeVas (c 2) sb) = none) → s.pageFail .write (rangeVas (c 3) db) = none →
        ∃ t id rep, exec (.coll o) s = .next (t.finish o.e (some []) [.reply rep] []) ∧ others t ∧ held t o.v o.d rep ∧
          (let j := t.colls.get id
           j.live = true ∧ j.warp = s.actor ∧ j.gang = w.gang ∧ j.ens = l.ens ∧ j.kind = c 0 % 16 ∧ j.opr = c 0 / 16 % 16 ∧ j.root = c 0 / 256 % 64 ∧ j.efmt = o.afmt ∧ j.afmt = o.bfmt ∧ j.count = c 4 ∧ j.tag = r 1 ∧ j.src = c 2 ∧ j.dst = c 3 ∧ j.dstBytes = db ∧
           j.reply = rep ∧ j.aborted = false ∧ j.result = none ∧ j.bar = (if r 5 = 0xFFFFFFFF#32 then none else some (c 5)) ∧
           ∀ k, t.lines.get k = if k ∈ rangeKeys j.dstPages j.dst db then .absent else s.lines.get k))) ∧
     (∀ o : NOp,
       let n := (s.srcW o.s0 0).toNat % 16
       let b := w.batches.get n
       let word (x : Nat) : Nat := x * 65536 + batchFlags b * 256 + batchCause b
       let full := Nat.lor (2 ^ 31) (word b.length) % 2 ^ 32
       let part := word (b.filter (fun c => !c.done)).length
       let out (x : Nat) : List Buf := if o.v then [] else [.scal o.d.toNat (BitVec.ofNat 32 x)]
       let seen (x : Nat) : State := s.logRead s.actor m (natBytes 4 x)
       (w.poisoned (.cseal o) m = none → exec (.cseal o) s = .next (s.finish o.e none [.seal n] []) ∧
         (s.closing → o.e = true → ∃ t, exec (.cseal o) s = .next t ∧ (t.warp s.actor).batches.get n = b ++ w.unsealed ∧ (t.warp s.actor).unsealed = [] ∧ s.committed t [] s.pastStep)) ∧
       (w.poisoned (.cwait o) m = none → b.all CopyRef.done = true →
         exec (.cwait o) s = .next ((seen (word b.length)).finish o.e (some (Lanes.splat (BitVec.ofNat 32 (word b.length)))) (out (word b.length) ++ [.batchDone n]) [])) ∧
       (w.poisoned (.cwait o) m = none → b.all CopyRef.done = false →
         ∃ t, exec (.cwait o) s = .next t ∧ (t.warp s.actor).wait = .batch n ∧ (t.warp s.actor).step = {} ∧ (t.warp s.actor).regs = w.regs ∧ s.sameBytes t) ∧
       (w.poisoned (.cpoll o) m = none → b.all CopyRef.done = true →
         exec (.cpoll o) s = .next ((seen full).finish o.e (some (Lanes.splat (BitVec.ofNat 32 full))) (out full ++ [.batchDone n]) [])) ∧
       (w.poisoned (.cpoll o) m = none → b.all CopyRef.done = false →
         exec (.cpoll o) s = .next ((seen part).finish o.e (some (Lanes.splat (BitVec.ofNat 32 part))) (out part) [])))) ∧
  (∀ (tm layout origin : List Word) (i0 i1 i2 i3 : Nat), i0 < tmBox tm 0 → i1 < tmBox tm 1 → i2 < tmBox tm 2 → i3 < tmBox tm 3 →
     let g (k : Nat) : Nat := (layout.getD k 0#32).toNat
     let c (k i : Nat) : Int := (origin.getD k 0#32).toInt + i
     let near0 := 16 * (g 0 + i1 * (g 1 % 65536) + i2 * (g 1 / 65536) + i3 * (g 2 % 2 ^ 24)) + i0 * elemBytes (tmNear tm)
     let mode := g 2 / 2 ^ 24 % 16
     ∃ e ∈ tileElems tm layout origin,
       (mode = 0 → e.near = near0) ∧ (mode ≠ 0 → e.near = near0 / 128 * 128 + ((near0 / 16 % 8) ^^^ (i1 / 2 ^ (mode - 1) % 8)) * 16 + near0 % 16) ∧
       e.far = tmGbase tm + c 0 i0 * elemBytes (tmFar tm) + c 1 i1 * tmGstr tm 1 + c 2 i2 * tmGstr tm 2 + c 3 i3 * tmGstr tm 3 ∧
       (e.inb = true ↔ (0 ≤ c 0 i0 ∧ c 0 i0 < tmExt tm 0) ∧ (0 ≤ c 1 i1 ∧ c 1 i1 < tmExt tm 1) ∧ (0 ≤ c 2 i2 ∧ c 2 i2 < tmExt tm 2) ∧ (0 ≤ c 3 i3 ∧ c 3 i3 < tmExt tm 3)))

/-- A line of a copy lands: each element's converted code stands at its place, near or far, and the absent line is present. A copy whose lines have landed, or that fails, completes in one event: its reply gets the status pair, the
barrier its bytes, the port its message; the absent lines that it has not landed become present, or failed if it fails and would have written them; one that has landed and was made absent again stays as it is. A broadcast or all-
gather of a launch in no ensemble completes with its source's bytes at its destination, and an aborted collective with the old contents, but for lines it had written in part, which are failed; an all-reduce adds 32-bit integers
modulo 2^32 (R196, R198 to R200, R216 to R218). The model's own readings in it are log entries 29 and 30: near pages are translated as the COPY performs, a far address when its line lands. -/
def Obligations.CopyEvents : Prop :=
  (∀ (s : State) (id line : Nat),
    let j := s.copies.get id
    let en := elemBytes (tmNear j.tmpl)
    let ef := elemBytes (tmFar j.tmpl)
    let n := if j.inward then en else ef
    let dst (e : Elem) : Option Nat := match j.inward, s.farLoc j e with
      | true, _ => some (j.nearLoc e.near)
      | false, .ok far _ => some far
      | false, .cause _ => none
    let code (e : Elem) : Nat := match j.inward, s.farLoc j e with
      | true, .ok far _ => (convertCode (tmNear j.tmpl) (tmFar j.tmpl) (tmRnd j.tmpl) (tmSat j.tmpl) (s.read far ef)).1
      | _, _ => (convertCode (tmFar j.tmpl) (tmNear j.tmpl) (tmRnd j.tmpl) (tmSat j.tmpl) (s.read (j.nearLoc e.near) en)).1
    s.canLand id line = true → s.frozen j.gang = false → j.landed = [] → j.early = [] → s.attached j.ck = false →
    ∃ t, exec (.copyLineLand id line) s = .next t ∧ (t.copies.get id).landed = [line] ∧ (∀ v, { t.warp v with woken := (s.warp v).woken } = s.warp v) ∧
      (j.dir = 0 → s.lines.get (j.lineKey line) = .absent → t.lines.get (j.lineKey line) = .present) ∧
      ((j.lineElems line).Pairwise (fun x y => ∀ a b, dst x = some a → dst y = some b → a + n ≤ b ∨ b + n ≤ a) →
        ∀ e ∈ j.lineElems line, ∀ a, dst e = some a → ∀ k, k < n → t.byte (a + k) = (natBytes n (code e)).getD k 0#8) ∧
      (∀ a, (∀ e ∈ j.lineElems line, ∀ b, dst e = some b → a < b ∨ b + n ≤ a) → t.byte a = s.byte a)) ∧
  (∀ (s : State) (id : Nat) (cause : Nat) (i : Instr),
    let j := s.copies.get id
    let p := j.ck / 64
    let seq := (s.part p).seqctr
    let w := s.warp j.warp
    let pk := portKey (ctxKey p (j.ck % 64)) (tmPort j.tmpl)
    let x := s.port pk
    let pair : List Word := [BitVec.ofNat 32 j.bytes, BitVec.ofNat 32 (2 ^ 31 + j.flags % 128 * 2 ^ 24 + cause * 2 ^ 16 + seq.toNat % 65536)]
    ((i = .copyComplete id ∧ cause = 0 ∧ j.work.all j.landed.contains = true) ∨ (i = .copyFail id true ∧ cause = cCOPY_ERROR) ∨ (i = .copyFail id false ∧ s.copyFailure j = some cause ∧ cause ≠ 0)) →
    s.copyFirst id = true → s.canFinishCopy j = true → j.hits = [] → s.attached j.ck = false → (s.launch (s.gang j.gang).launch).replay = false →
    ∃ t, exec i s = .next t ∧ (t.copies.get id).live = false ∧ s.sameBytes t ∧
      (w.live = true → w.replies.any (fun e => e.1 == j.reply) = true → j.bar = none →
        let y := (t.warp j.warp).replies.get j.reply
        y.have_ = true ∧ y.vals = pair.map Lanes.splat ∧ (t.warp j.warp).regs = w.regs) ∧
      (∀ b, j.bar = some b → cause = 0 → (s.gang j.gang).place = .resident → (s.gang j.gang).halted = false → ((s.gang j.gang).barrier b).count = 0 →
        -2147483648 ≤ ((s.gang j.gang).barrier b).balance + j.bytes → ((s.gang j.gang).barrier b).balance + j.bytes ≤ 2147483647 →
        ((t.gang j.gang).barrier b).balance = ((s.gang j.gang).barrier b).balance + j.bytes) ∧
      (tmPortEn j.tmpl = true → x.valid = true → x.quar = false → x.resident = true → 0 < x.free →
        (t.port pk).msgs = x.msgs ++ [({ seq := seq, kind := 3, sender := j.chan + 16 * j.sec, payload := pair ++ [BitVec.ofNat 32 j.tidx, j.layout.getD 0 0#32, 0#32, 0#32], arrived := s.phc } : Message)]) ∧
      (j.dir = 0 → ∀ l ∈ j.footprint, s.lines.get (j.lineKey l) = .absent → (∀ k ∈ j.footprint, j.lineKey k = j.lineKey l → k = l) →
        t.lines.get (j.lineKey l) = if l ∈ j.landed then .absent else if cause ≠ 0 ∧ l ∈ j.work then .failed else .present)) ∧
  (∀ (e : BitVec 6) (vals : List (Option Nat)), e = 0x04#6 ∨ e = 0x05#6 → vals.length ≤ 64 → (∀ v ∈ vals, ∀ x, v = some x → x < 2 ^ 32) → (∃ x, some x ∈ vals) →
    (collElem e e 0 vals).1 = (vals.map (fun v => v.getD 0)).sum % 2 ^ 32) ∧
  (∀ (s : State) (id : Nat),
    let j := s.colls.get id
    let n := j.count * elemBytes j.efmt
    let dst (i : Nat) : Nat := pageLoc j.dstPages (j.dst + i)
    let keys := rangeKeys j.dstPages j.dst j.dstBytes
    let key (l : Nat) : Nat := pageLoc j.dstPages (j.dst + 128 * l) / 128
    j.live = true → j.dst % 128 = 0 → 0 < j.dstBytes → s.collReady j = true → j.hits = [] → j.bar = none → s.attached j.ck = false → (s.launch (s.gang j.gang).launch).replay = false →
    (j.aborted = true → ∃ t, exec (.collPeerAbort id) s = .next t ∧ (t.colls.get id).live = false ∧ s.sameBytes t ∧
      (j.landed = [] → ∀ k ∈ keys, s.lines.get k = .absent → t.lines.get k = .present) ∧
      ∀ l, l < (j.dstBytes + 127) / 128 → (∃ k ∈ j.landed, k / 8 = l) → (∃ k ∈ j.left, k / 8 = l) → s.lines.get (key l) = .absent → t.lines.get (key l) = .failed) ∧
    (j.aborted = false → j.ens = none → j.rank = 0 → (j.kind = 2 ∨ (j.kind = 3 ∧ j.root = 0)) → s.collReadable j 1 = true → 0 < elemBytes j.efmt → j.dst % elemBytes j.efmt = 0 → j.src % elemBytes j.efmt = 0 →
      (∀ a b, a < n → b < n → dst a = dst b → a = b) → 65536 % elemBytes j.efmt = 0 → j.dstBytes = n → j.result = none → j.landed = [] → s.holds.headD false = false →
      ∃ t, exec (.collComplete id []) s = .next t ∧ (t.colls.get id).live = false ∧ (∀ k ∈ keys, s.lines.get k = .absent → t.lines.get k = .present) ∧
        (∀ i, i < n → t.byte (dst i) = s.byte (pageLoc j.srcPages (j.src + i))) ∧ (∀ a, (∀ i, i < n → a ≠ dst i) → t.byte a = s.byte a)))

/-! ### Ports, patterns and timers (R291 to R315) -/

/-- SEND queues its message at a resident port with a slot; a full port raises PORT_FULL or parks the sender, and so does one that is not resident. SENDMEM stages its source and holds a slot; JWAIT registers its warp with the
pattern; TIMEPOST takes a timer entry and TIMEPOST_CANCEL frees it; PORTQRY tells a port's state; PATARM arms a pattern, with its reserved places, or disarms it, and gives the status word (R308 to R315). The model's own readings
in it are log entries 24 and 33. -/
def Obligations.PortInstructions : Prop :=
  ∀ (s : State), s.drained → s.olderRejected kENGINE = false →
    let w := s.me
    let m := w.step.issue
    let g := s.gangOf w
    let ck := s.ckOf w
    (∀ (o : XOp) (n : BitVec 9), o.s0 = .scal n → s.sure o.e →
      let r (k : Nat) : Word := w.sword (n.toNat + k)
      let pk := portKey ck (r 0).toNat
      let x := s.port pk
      let sender := w.wid % 2048 + 2048 * (w.role % 4)
      let open_ : Prop := (r 0).toNat < 65536 ∧ x.valid = true ∧ x.quar = false
      let room : Prop := x.resident = true ∧ x.fullFor s.actor = false ∧ s.unitQ.get x.home < s.caps.unitQ
      let scalar (i : Instr) (v : Nat) (P : State → Prop) : Prop :=
        ∃ t, exec i s = .next (t.finish o.e (some (Lanes.splat (BitVec.ofNat 32 v))) (scalWrites o.v o.d.toNat false m v) []) ∧ t.me.regs = w.regs ∧ s.sameBytes t ∧ P t
      ((Instr.send o).wellFormed = true → w.poisoned (.send o) m = none → open_ →
        (room → s.closing → o.e = true →
          ∃ t, exec (.send o) s = .next t ∧ s.committed t [] s.pastStep ∧
            (t.port pk).msgs = x.msgs ++ [({ seq := (s.part (ck / 64)).seqctr, sender := sender, kind := 0, payload := [r 1, r 2, r 3, r 4, r 5, r 6], arrived := s.phc } : Message)] ∧
            (∀ q, q ≠ pk → (t.port q).msgs = (s.port q).msgs)) ∧
        (x.resident = true → x.fullFor s.actor = true → o.f = true → ∃ t, exec (.send o) s = .next t ∧ (t.warp s.actor).trapped cPORT_FULL w.step.first 0#32 (BitVec.ofNat 32 (r 0).toNat) m) ∧
        (x.resident = false ∨ (x.fullFor s.actor = true ∧ o.f = false) →
          ∃ t, exec (.send o) s = .next t ∧ (t.warp s.actor).wait = .sender pk ∧ (t.warp s.actor).step = {} ∧ (t.warp s.actor).regs = w.regs ∧ (t.port pk).msgs = x.msgs)) ∧
      ((Instr.sendmem o).wellFormed = true → w.poisoned (.sendmem o) m = none → open_ → room →
        let src := (r 1).toNat
        let dst := (r 2).toNat
        let len := (r 3).toNat
        16 ≤ len → len ≤ 4096 → len % 16 = 0 → src % 16 = 0 → dst % 16 = 0 →
        (o.ssp = true → src + len ≤ g.gangSize) → (o.ssp = false → s.rangeFail .read src len = none) → s.rangeFail .write dst len = none →
        ∃ t id rep, exec (.sendmem o) s = .next (t.finish o.e (some []) [.reply rep] []) ∧ s.sameBytes t ∧ t.me.regs = w.regs ∧ (t.port pk).heldSlots = x.heldSlots + 1 ∧
          (let j := t.sends.get id
           j.live = true ∧ j.warp = s.actor ∧ j.port = (r 0).toNat ∧ j.dst = dst ∧ j.user = [r 4, r 5, r 6, r 7] ∧ j.sender = sender ∧ j.reply = rep ∧ j.stage.length = len ∧
           (o.ssp = true → j.stage = s.bytes (gangLoc w.gang src) len) ∧
           (o.ssp = false → ∀ i, i < len → ∀ loc tso, s.translate (ck / 64) (ck % 64) .scr .read w.isSup (src + i) = .ok loc tso → j.stage[i]? = some (s.byte loc))) ∧
          (let y := t.me.replies.get rep
           y.vec = false ∧ y.base = o.d.toNat ∧ y.n = (if o.v then 0 else 2) ∧ y.have_ = false)) ∧
      ((Instr.jwait o).wellFormed = true → w.poisoned (.jwait o) m = none → s.jwaitReason w (r 0).toNat o.d.toNat = none → s.unitQ.get (s.patHome ck (s.pat (patKey ck (r 0).toNat))) < s.caps.unitQ →
        s.closing → o.e = true →
        ∃ t, exec (.jwait o) s = .next t ∧ s.committed t [] s.pastStep ∧ (t.warp s.actor).wait = .jwait (patKey ck (r 0).toNat) o.d.toNat m s.me.stepEnd ∧
          (t.pat (patKey ck (r 0).toNat)).waiters = (s.pat (patKey ck (r 0).toNat)).waiters ++ [s.actor]) ∧
      (s.unitQ.get (timerUnit g.part) < s.caps.unitQ →
        ((Instr.timepost o).wellFormed = true → w.poisoned (.timepost o) m = none → open_ → ((r 3).toNat = 0 ∨ 1000 ≤ (r 3).toNat) →
          (s.freeTimer g.part = none → scalar (.timepost o) 0xFFFFFFFF (fun t => t.parts = s.parts)) ∧
          (∀ h, s.freeTimer g.part = some h → scalar (.timepost o) h (fun t => (t.part g.part).timers.get h =
            ({ live := true, ctx := g.ctx, port := (r 0).toNat, sec := (r 2).toNat, ns := min (r 1).toNat 999999999, period := (r 3).toNat, payload := [r 4, r 5, r 6, r 7, r 8, r 9] } : Timer)))) ∧
        ((Instr.timepostCancel o).wellFormed = true → w.poisoned (.timepostCancel o) m = none → (r 0).toNat < 256 →
          let e := (s.part g.part).timers.get (r 0).toNat
          (e.live = true ∧ e.ctx = g.ctx → scalar (.timepostCancel o) 0 (fun t => ((t.part g.part).timers.get (r 0).toNat).live = false)) ∧
          (¬ (e.live = true ∧ e.ctx = g.ctx) → scalar (.timepostCancel o) 1 (fun t => t.parts = s.parts))))) ∧
    (∀ o : NOp,
      let num := (s.srcW o.s0 0).toNat
      let y := s.port (portKey ck num)
      let pt := patKey ck num
      let p := s.pat pt
      let op := (s.srcW o.s1 0).toNat
      let d := (s.ctx ck).descs.get p.desc
      let status (v : Nat) (P : State → Prop) : Prop := ∃ t, exec (.patarm o) s = .next (t.finish o.e (some (Lanes.splat (BitVec.ofNat 32 v))) (scalWrites o.v o.d.toNat false m v) []) ∧ P t
      ((Instr.portqry o).wellFormed = true → w.poisoned (.portqry o) m = none → num < 65536 → y.valid = true →
        let v := y.lost * 2 ^ 48 + (if y.wake ≠ 0#32 then 2 ^ 19 else 0) + (if y.quar then 2 ^ 18 else 0) + (if y.resident then 2 ^ 17 else 0) + (y.depth - 1) % 256 * 2 ^ 9 + (if y.resident then y.msgs.length % 512 else 0)
        exec (.portqry o) s = .next ((s.logRead s.actor m (natBytes 8 v)).finish o.e (some (Lanes.splat (BitVec.ofNat 32 v))) (scalWrites o.v o.d.toNat true m v) [])) ∧
      ((Instr.patarm o).wellFormed = true → w.poisoned (.patarm o) m = none → s.sure o.e → num < 4096 → p.valid = true → s.unitQ.get (s.patHome ck p) < s.caps.unitQ →
        (op = 0 → status (if p.armed then 1 else 0) (fun t => (t.pat pt).armed = (false) ∧ (p.armed = true → (t.pat pt).waiters = []))) ∧
        (op ≠ 0 → s.patMalformed ck p = false → p.armed = true → status 1 (fun t => (t.pat pt).armed = true ∧ (t.pat pt).once = decide (op = 3))) ∧
        (op ≠ 0 → s.patMalformed ck p = false → p.armed = false → 512 ≤ (s.armedIn (s.patHome ck p)).length → status 0x0100 (fun t => t.pats = s.pats)) ∧
        (op ≠ 0 → s.patMalformed ck p = false → p.armed = false → (s.armedIn (s.patHome ck p)).length < 512 → (∀ q ∈ p.ports, (s.port (portKey ck q)).resident = true) →
          let armed (pl : List RsvPlace) : Prop := status 0 (fun t => (t.pat pt).armed = true ∧ (t.pat pt).once = decide (op = 3) ∧ (t.pat pt).passed = 0 ∧ (t.pat pt).places = pl)
          (p.isWake = true ∨ dsRsv d = false → armed []) ∧
          (p.isWake = false → dsRsv d = true → dsGangs d = 0 → dsRgangs d = 0 → status 0x50300 (fun t => t.pats = s.pats)) ∧
          (p.isWake = false → dsRsv d = true → ¬ (dsGangs d = 0 ∧ dsRgangs d = 0) →
            (s.reserve pt = none → status 0x40300 (fun t => t.pats = s.pats)) ∧ ∀ pl, s.reserve pt = some pl → armed pl))))

/-- The join units' events. A port that becomes resident takes its buffered arrivals in order; the oldest parked sender retries; a due timer entry posts its message, and a one-shot one is freed; a SENDMEM writes its payload and
queues its message, or does neither if a byte of its source is poisoned. A complete pattern fires: it takes one message of each port, and gives them to its waiter's scalars, or to a launch that enters the queue (R295, R298, R304
to R307, R309, R312, R314). The model's own readings in it are log entries 33 and 50. -/
def Obligations.JoinEvents : Prop :=
  (∀ (s : State) (ctx port : Nat),
    let k := portKey ctx port
    let x := s.port k
    (port < 65536 → x.valid = true → x.quar = false → x.resident = false → x.buffered ≠ [] → x.parked = [] → (∀ m ∈ x.buffered, m.kind ≠ 8) →
      x.msgs.length + x.heldSlots + x.buffered.length ≤ x.depth → s.roomFor x.home x.depth = true →
      ∃ t, exec (.portSwapIn ctx port) s = .next t ∧ (t.port k).resident = true ∧ (t.port k).buffered = [] ∧ s.sameBytes t ∧ (∀ v, t.warp v = s.warp v) ∧
        (t.port k).msgs = x.msgs ++ x.buffered.map (fun m => { m with arrived := s.phc })) ∧
    (∀ u, s.senderDue k = some u → exec (.portSenderRetry ctx port) s = .next ((s.logWake u []).updWarp u (fun w => { w with wait := .ready })))) ∧
  (∀ (s : State) (p h : Nat),
    let e := (s.part p).timers.get h
    let k := portKey (ctxKey p e.ctx) e.port
    let x := s.port k
    e.live = true → s.deadlinePassed e.sec e.ns = true → x.valid = true → x.quar = false → x.resident = true → 0 < x.free →
    ∃ t msg, exec (.timerPost p h) s = .next t ∧ (t.port k).msgs = x.msgs ++ [msg] ∧ msg.kind = 2 ∧ msg.sender = h ∧ msg.payload = e.payload ∧ msg.seq = (s.part p).seqctr ∧
      (e.period = 0 → ((t.part p).timers.get h).live = false) ∧
      (e.period ≠ 0 → e.ns < 1000000000 → e.sec < 2 ^ 32 → let f := (t.part p).timers.get h
        f.live = true ∧ f.port = e.port ∧ f.ns < 1000000000 ∧ (f.sec * 1000000000 + f.ns) % (2 ^ 32 * 1000000000) = (e.sec * 1000000000 + e.ns + e.period) % (2 ^ 32 * 1000000000)) ∧ s.sameBytes t) ∧
  (∀ (s : State) (id : Nat) (locs : List Nat),
    let j := s.sends.get id
    let k := portKey j.ck j.port
    let w := s.warp j.warp
    let told (t : State) (bytes word : Nat) : Prop := w.live = true → w.replies.any (fun e => e.1 == j.reply) = true →
      let y := (t.warp j.warp).replies.get j.reply
      y.have_ = true ∧ y.vals = [Lanes.splat (BitVec.ofNat 32 bytes), Lanes.splat (BitVec.ofNat 32 (2 ^ 31 + word))]
    j.live = true → s.frozen j.gang = false → (s.port k).valid = true → (s.port k).quar = false →
    (List.range j.stage.length).map (fun i => s.scrLoc j.cluster j.ck .write j.sup (j.dst + i)) = locs.map some → locs.Nodup → (∀ a ∈ locs, s.poisonLine.get (a / 128) = false) → s.attached j.ck = false →
    (j.bad = [] → ∃ t msg, exec (.sendmemComplete id) s = .next t ∧ (t.sends.get id).live = false ∧ (t.port k).msgs = (s.port k).msgs ++ [msg] ∧ msg.kind = 1 ∧ msg.sender = j.sender ∧
      msg.payload = [BitVec.ofNat 32 j.dst, BitVec.ofNat 32 j.stage.length] ++ j.user ∧ (∀ i a, locs[i]? = some a → t.byte a = j.stage.getD i 0#8) ∧ s.sameBytesBut t locs ∧
      told t j.stage.length (msg.seq.toNat % 65536)) ∧
    (j.bad ≠ [] → ∃ t, exec (.sendmemComplete id) s = .next t ∧ (t.sends.get id).live = false ∧ (t.port k).msgs = (s.port k).msgs ∧ s.sameBytes t ∧ told t 0 (cPOISON * 65536))) ∧
  (∀ (s : State) (sec pk : Nat) (top : List Nat),
    let x := s.pat pk
    let ck := pk / 4096
    let ms := x.ports.filterMap (fun n => (s.port (portKey ck n)).head)
    s.fireChoice sec = some (pk, top) → x.once = false →
    (∀ u rest d lanes last, x.isWake = true → x.waiters = u :: rest → (s.warp u).wait = .jwait pk d lanes last → x.ports.Nodup →
      ∃ t, exec (.patternFire sec) s = .next t ∧ (t.warp u).wait = .ready ∧ (t.pat pk).waiters = rest ∧ (t.pat pk).armed = true ∧ (t.pat pk).passed = 0 ∧ s.sameBytes t ∧ (∀ v, v ≠ u → t.warp v = s.warp v) ∧
        (∀ i, i < (ms.flatMap Message.words).length → (t.warp u).sword (d + i) = (ms.flatMap Message.words).getD i 0#32) ∧
        (∀ r, (r < d ∨ d + (ms.flatMap Message.words).length ≤ r) → (t.warp u).sword r = (s.warp u).sword r) ∧
        ∀ n ∈ x.ports, (let y := s.port (portKey ck n)
          (y.wake ≠ 0#32 → (t.port (portKey ck n)).wake = 0#32 ∧ (t.port (portKey ck n)).msgs = y.msgs) ∧ (y.wake = 0#32 → (t.port (portKey ck n)).msgs = y.msgs.drop 1))) ∧
    (let d := (s.ctx ck).descs.get x.desc
     let n := if dsGangs d = 0 then (((ms.headD {}).payload).headD 0#32).toNat else dsGangs d
     x.isWake = false → x.rsv = false → ((s.consume pk).passOver pk top).admissionReason (ck / 64) (ck % 64) d n pk = none →
      ∃ t ln, exec (.patternFire sec) s = .next t ∧ s.sameBytes t ∧ (∀ v, t.warp v = s.warp v) ∧
        (t.launch ln).live = true ∧ (t.launch ln).part = ck / 64 ∧ (t.launch ln).ctx = ck % 64 ∧ (t.launch ln).desc = x.desc ∧ (t.launch ln).words = d ∧ (t.launch ln).gangs = n ∧ (t.launch ln).started = 0 ∧
        (t.launch ln).prio = dsPrio d ∧ (t.launch ln).cls = dsClass d ∧ (t.launch ln).seq = s.oldestHead pk ∧ (t.launch ln).firing = (s.part (ck / 64)).firing ∧
        (t.launch ln).msgs = (ms.flatMap Message.words).flatMap (fun y => natBytes 4 y.toNat)))

/-! ### Gain heaps (R318 to R331) -/

/-- The heap instructions, their checks passed, enter the queue of the heap's unit with one operation for each executing lane; HEAPPOP, HEAPSUM and HEAPDRAIN expect a reply. No heap, register or byte changes yet; a lane whose id
or gain is out of range raises its condition and enters no operation. HEAPPOP.w parks on a heap with no entry for it that has not terminated; without an executing lane nothing enters (R324 to R328). The model's own readings in it
are log entries 24 and 47. -/
def Obligations.HeapInstructions : Prop :=
  ∀ (s : State) (o : NOp),
    let w := s.me
    let m := w.execSet o.g
    let n := (s.srcW o.s0 0).toNat
    let hk := heapKey (s.ckOf w) n
    let h := s.heaps.get hk
    let q := s.heapQ.get h.home
    let lane (l : Nat) : Nat × Nat × Word := (l, s.src .n32 o.s1 l, BitVec.ofNat 32 (s.src .f32 o.s2 l))
    let fl (k : HeapOpKind) (l : Nat) : Nat := heapLaneFlags k (s.src .n32 o.s1 l) (s.src .f32 o.s2 l)
    let job (k : HeapOpKind) (rid : Nat) (ls : List (Nat × Nat × Word)) (behind : List Nat) (wt : Bool) : HeapOp := { kind := k, warp := s.actor, gang := w.gang, heap := hk, lanes := ls, reply := rid, behind := behind, wt := wt }
    let still (t : State) : Prop := t.heaps = s.heaps ∧ s.sameBytes t ∧ t.me.regs = w.regs
    let room : Prop := s.drained ∧ s.sure o.e ∧ q.length < s.caps.heapQ ∧ s.olderRejected kENGINE = false
    let before := s.popsBefore s.actor hk (s.heapView hk)
    let queued (i : Instr) (k : HeapOpKind) (behind : List Nat) (wt : Bool) : Prop :=
      ∃ t id, exec i s = .next (t.finish o.e (some (t.freeOut 0#32 [])) [.reply id] []) ∧ still t ∧
        t.heapQ.get h.home = q ++ [job k id (if k = .sum then [(0, 0, 0#32)] else m.lanes.map lane) behind wt] ∧
        (let r := t.me.replies.get id
         r.vec = decide (k ≠ .sum) ∧ r.base = o.d.toNat ∧ r.n = (if o.v then 0 else 2) ∧ r.have_ = false)
    (m = 0#32 →
      (∀ f ∈ [Instr.heapput, Instr.heapdone, Instr.gainadd], (f o).wellFormed = true → s.readable (f o) o.g → exec (f o) s = .next (s.finish o.e none [] [])) ∧
      (∀ f ∈ [Instr.heappop false, Instr.heappop true, Instr.heapdrain, Instr.heapsum], (f o).wellFormed = true → s.readable (f o) o.g → exec (f o) s = .next (s.finish o.e (some (s.freeOut 0#32 [])) [] []))) ∧
    (m ≠ 0#32 → n < 16 → h.valid = true →
      (room → ∀ p ∈ [(Instr.heapput, HeapOpKind.put), (Instr.heapdone, HeapOpKind.done), (Instr.gainadd, HeapOpKind.add)], (p.1 o).wellFormed = true → s.readable (p.1 o) o.g →
        (∀ c ∈ condsOf w.step.idx m (fl p.2), w.sp.fpctl.getLsbD c.bit = false) →
        ∃ t, exec (p.1 o) s = .next (t.finish o.e none [] []) ∧ still t ∧ t.me.step.conds = w.step.conds ++ condsOf w.step.idx m (fl p.2) ∧
          (let acts := m.lanes.filter (fun l => fl p.2 l == 0)
           t.heapQ.get h.home = q ++ (if acts = [] then [] else [job p.2 0 (acts.map lane) [] false]))) ∧
      (room → ∀ p ∈ [(Instr.heapdrain, HeapOpKind.drain), (Instr.heapsum, HeapOpKind.sum)], (p.1 o).wellFormed = true → s.readable (p.1 o) o.g → queued (p.1 o) p.2 [] false) ∧
      (room → (Instr.heappop false o).wellFormed = true → s.readable (.heappop false o) o.g → queued (.heappop false o) .pop before false) ∧
      ((Instr.heappop true o).wellFormed = true → s.readable (.heappop true o) o.g →
        (room → before.length < (s.heapView hk).count ∨ (s.heapView hk).termd = true → queued (.heappop true o) .pop before true) ∧
        (w.enabledConds = [] → (s.heapView hk).count ≤ before.length → (s.heapView hk).termd = false →
          ∃ t, exec (.heappop true o) s = .next t ∧ (t.warp s.actor).wait = .popper hk ∧ (t.warp s.actor).step = {} ∧ (t.warp s.actor).regs = w.regs ∧ s.actor ∈ (t.heaps.get hk).parked)))

/-- The unit of a heap applies the oldest instruction of its queue that need not wait, and evaluates termination in the same act: a heap whose residual is below TOL, with nothing in flight and exact, terminates and posts its
message. A put replaces a queued or pending gain, queues one above the threshold when there is room, and else marks the heap inexact and records it; an add does so with the sum; a done frees an entry in flight and inserts its
pending gain; a pop takes the entry of largest gain, the lowest id among equals, into flight; a drain takes it away; HEAPSUM recounts and gives the pair of the heap before. RESID stays the sum of the entries' truncated gains. The
retirement of a gang completes its entries in flight (R320 to R323, R326 to R328, R330, R331). The model's own readings in it are log entry 47. -/
def Obligations.HeapUnit : Prop :=
  (∀ (s : State) (sec : Nat) (o : HeapOp) (l i : Nat) (g : Word), s.heapPick [] (s.heapQ.get sec) = some o → s.heapHeld sec = false → o.kind ≠ .retire → o.lanes = [(l, i, g)] → l < 32 → (s.heaps.get o.heap).valid = true →
    let h := s.heaps.get o.heap
    let h0 := if o.kind = .pop then { h with parked := h.parked.filter (· != o.warp) } else h
    let ck := o.heap / 16
    let r : HeapStep := match o.kind with
      | .put => h0.doPut i g
      | .add => h0.doAdd i g
      | .done => h0.doDone i
      | .pop => h0.doPop o.gang (h0.spareFor (h.opened o))
      | .drain => h0.doDrain
      | .sum => { heap := { h0 with resid := h0.recount, inexact := false, clamped := false, baddone := 0 } }
      | .retire => { heap := h0 }
    let ends : Prop := r.heap.terminated = true ∧ h.termd = false
    ∃ t, exec (.heapUnitApply sec) s = .next t ∧ t.heapQ.get sec = (s.heapQ.get sec).erase o ∧ t.heaps.get o.heap = { r.heap with termd := r.heap.terminated } ∧ s.sameBytes t ∧ (∀ v, v ≠ o.warp → t.warp v = s.warp v) ∧
      (t.warp o.warp).regs = (s.warp o.warp).regs ∧ (∀ k, k ≠ o.heap → t.heaps.get k = s.heaps.get k) ∧
      ((s.warp o.warp).replies.any (fun e => e.1 == o.reply) = true →
        let y := (t.warp o.warp).replies.get o.reply
        ((o.kind = .pop ∨ o.kind = .drain) → y.have_ = true ∧ (y.vals.getD 0 []).at l = r.id ∧ (y.vals.getD 1 []).at l = r.gain) ∧
        (o.kind = .sum → y.have_ = true ∧ (y.vals.getD 0 []).at 0 = h0.sumPair.1 ∧ (y.vals.getD 1 []).at 0 = h0.sumPair.2)) ∧
      (¬ ends → t.ports = s.ports ∧ t.outbox = s.outbox) ∧
      (let x := s.port (portKey ck h.tport)
       ends → x.valid = true → x.quar = false → x.resident = true → 0 < x.free →
        ∃ msg, (t.port (portKey ck h.tport)).msgs = x.msgs ++ [msg] ∧ msg.kind = 5 ∧ msg.sender = o.heap % 16 ∧
          msg.payload = (List.range 5).map (fun k => BitVec.ofNat 32 (r.heap.resid / 2 ^ (32 * k))) ++ [BitVec.ofNat 32 r.heap.count]) ∧
      ∀ k, r.full = some k → (s.ctx ck).ring.length < 256 → ∃ rec, (t.ctx ck).ring = (s.ctx ck).ring ++ [rec] ∧ rec.cause = cHEAP_FULL ∧ rec.taddr = BitVec.ofNat 32 (o.heap % 16) ∧ rec.tinfo = BitVec.ofNat 32 k) ∧
  (∀ (s : State) (sec : Nat) (o : HeapOp), s.heapPick [] (s.heapQ.get sec) = some o → s.heapHeld sec = false → o.kind = .retire → (s.heaps.get o.heap).valid = true → Map.wf (s.heaps.get o.heap).entries = true →
    ∃ t, exec (.heapUnitApply sec) s = .next t ∧ t.heapQ.get sec = (s.heapQ.get sec).erase o ∧ s.sameBytes t ∧ (∀ v, t.warp v = s.warp v) ∧
      (∀ i held pend, (t.heaps.get o.heap).entry i ≠ .flight held pend o.gang) ∧
      ∀ i, (∀ held pend, (s.heaps.get o.heap).entry i ≠ .flight held pend o.gang) → (t.heaps.get o.heap).entry i = (s.heaps.get o.heap).entry i) ∧
  (∀ (s : State) (c h u : Nat), s.popperDue (heapKey c h) = some u → exec (.heapPopperWake c h) s = .next ((s.logWake u []).updWarp u (fun w => { w with wait := .ready }))) ∧
  (∀ h : Heap, h.terminated = true ↔ h.resid < tr96 h.tol ∧ h.inflight = 0 ∧ h.inexact = false) ∧
  (∀ x : Word, x.toNat < 2 ^ 31 → x.toNat / 2 ^ 23 < 255 →
    tr96 x = (if x.toNat / 2 ^ 23 = 0 then 2 * x.toNat else (2 ^ 23 + x.toNat % 2 ^ 23) * 2 ^ (x.toNat / 2 ^ 23)) / 2 ^ 54) ∧
  ∀ (h : Heap) (i : Nat) (g : Word), Map.wf h.entries = true →
    let p := if g = 0x80000000#32 then 0#32 else g
    let d := if gMax.toNat ≤ g.toNat then gMax else g
    let first (k : Nat) (x : Word) : Prop := h.entry k = .queued x ∧ ∀ j y, h.entry j = .queued y → y.toNat < x.toNat ∨ (y = x ∧ k ≤ j)
    let others (r : HeapStep) (k : Nat) : Prop := ∀ j, j ≠ k → r.heap.entry j = h.entry j
    let inserted (r : HeapStep) (x : Word) : Prop :=
      (x.toNat ≤ h.thresh.toNat → r.heap.entry i = .absent ∧ r.full = none) ∧
      (h.thresh.toNat < x.toNat → h.count + h.inflight < h.cap → r.heap.entry i = .queued x ∧ r.full = none) ∧
      (h.thresh.toNat < x.toNat → h.cap ≤ h.count + h.inflight → r.heap.entry i = .absent ∧ r.heap.inexact = true ∧ r.full = some i)
    (∀ gang spare, h.resid = h.recount → ∀ r ∈ [h.doPut i g, h.doAdd i g, h.doDone i, h.doPop gang spare, h.doDrain], r.heap.resid = r.heap.recount ∧ Map.wf r.heap.entries = true) ∧
    (∀ gang spare, spare < h.count →
      let r := h.doPop gang spare
      ∃ k x, first k x ∧ r.gain = x ∧ r.id = BitVec.ofNat 32 k ∧ r.heap.entry k = .flight x 0#32 gang ∧ others r k) ∧
    (∀ gang spare, h.count ≤ spare → h.doPop gang spare = { heap := h, id := 0xFFFFFFFF#32 }) ∧
    (h.count = 0 → h.doDrain = { heap := h, id := 0xFFFFFFFF#32 }) ∧
    (0 < h.count → let r := h.doDrain
      ∃ k x, first k x ∧ r.gain = x ∧ r.id = BitVec.ofNat 32 k ∧ r.heap.entry k = .absent ∧ others r k) ∧
    (∀ r ∈ [h.doPut i g, h.doAdd i g, h.doDone i], others r i) ∧
    (h.entry i = .absent → inserted (h.doPut i g) p) ∧
    (∀ y, h.entry i = .queued y → (h.doPut i g).heap.entry i = if p.toNat ≤ h.thresh.toNat then .absent else .queued p) ∧
    (∀ held pend gang, h.entry i = .flight held pend gang → (h.doPut i g).heap.entry i = .flight held p gang) ∧
    (h.entry i = .absent → (g.toNat < 2 ^ 31 ∧ g ≠ 0#32 → inserted (h.doAdd i g) d ∧ (h.doAdd i g).heap.clamped = (h.clamped || decide (gMax.toNat ≤ g.toNat))) ∧
      (2 ^ 31 ≤ g.toNat ∨ g = 0#32 → h.doAdd i g = { heap := h })) ∧
    (∀ y, h.entry i = .queued y → let x := gainSum y g
      (h.doAdd i g).heap.entry i = (if x.1.toNat ≤ h.thresh.toNat then .absent else .queued x.1) ∧ (h.doAdd i g).heap.clamped = (h.clamped || x.2)) ∧
    (∀ held pend gang, h.entry i = .flight held pend gang → let x := gainSum pend g
      (h.doAdd i g).heap.entry i = .flight held x.1 gang ∧ (h.doAdd i g).heap.clamped = (h.clamped || x.2)) ∧
    (∀ y : Word, let c := (round .f32 .rne false (xadd .rne (decodeVal .f32 y.toNat) (decodeVal .f32 g.toNat)).1).1
      gainSum y g = if 2 ^ 31 ≤ c then (0#32, false) else if gMax.toNat ≤ c then (gMax, true) else (BitVec.ofNat 32 c, false)) ∧
    (∀ held pend gang, h.entry i = .flight held pend gang →
      (pend.toNat ≤ h.thresh.toNat → (h.doDone i).heap.entry i = .absent) ∧
      (h.thresh.toNat < pend.toNat → h.count + h.inflight ≤ h.cap → (h.doDone i).heap.entry i = .queued pend) ∧
      (h.thresh.toNat < pend.toNat → h.cap < h.count + h.inflight → (h.doDone i).heap.entry i = .absent ∧ (h.doDone i).heap.inexact = true ∧ (h.doDone i).full = some i)) ∧
    ((∀ held pend gang, h.entry i ≠ .flight held pend gang) → (h.doDone i).heap = { h with baddone := min (h.baddone + 1) 255 }) ∧
    (h.baddone < 256 → h.inflight < 2 ^ 21 →
      let v := h.sumPair.2.toNat
      h.sumPair.1 = BitVec.ofNat 32 (round .f32 .rne false ((XReal.fin false h.recount 1).scale (-96))).1 ∧ v / 2 ^ 31 = h.inexact.toNat ∧
      (v / 2 ^ 30 % 2 = 1 ↔ h.recount < tr96 h.tol ∧ h.inflight = 0) ∧ v / 2 ^ 29 % 2 = h.clamped.toNat ∧ v / 2 ^ 21 % 256 = h.baddone ∧ v % 2 ^ 21 = h.inflight)

/-! ### Keyways and the supervisor's operations (R79, R82, R406 to R410) -/

/-- KWSEL gives its warp another slot at commit, with that slot's EMUVEC; KWRET leaves the emulator at TPC + GLEN or at its register's addresses. KWLOAD, KWSWAP and KWINV fill, replace and empty a slot of the partition and expect
their status: 0 done, 1 and 2 refused without effect. TLBINV drops the leaves that map its page, or all of the window's, and the table entries that lead there, from every structure, and WIPE notes its range, each expecting its
status (R79, R82, R406 to R409). The model's own readings in it are log entries 24, 42, 43, 78 and 91. The status of a supervisor operation reaches its reply, whose registers LOAD_REPLY writes: a keyway operation's at once,
TLBINV's when the accesses through the dropped translations have ended, WIPE's after its range reads zero with its lines present and no poison, those who waited for the lines woken (R82, R407, R410). -/
def Obligations.KeywaysAndSupervisorOps : Prop :=
  (∀ (s : State) (o : NOp), s.drained → s.me.enabledConds = [] → s.jobsFull = false →
     let w := s.me
     let m := w.step.issue
     let g := s.gangOf w
     let p := g.part
     let sp := w.sp
     let n := (s.srcW o.s0 0).toNat
     let ks := (s.part p).slots.get n
     let job (i : Instr) (e v : Bool) (d : Nat) (kind : JobKind) (P : State → Job → Prop) : Prop :=
       (e = true ∨ s.laterPoison = none) → ∃ t id rep, exec i s = .next (t.finish e (some []) [.reply rep] []) ∧ s.sameBytes t ∧ t.me.regs = w.regs ∧
         (let j := t.jobs.get id
          j.live = true ∧ j.kind = kind ∧ j.warp = s.actor ∧ j.reply = rep ∧ P t j) ∧
         (let y := t.me.replies.get rep
          y.vec = false ∧ y.base = d ∧ y.n = (if v then 0 else 1) ∧ y.have_ = false)
     let slot (t : State) : KeySlot := (t.part p).slots.get n
     (∀ i ∈ [Instr.kwsel o], i.wellFormed = true → w.poisoned i m = none → s.closing → o.e = true → n ≤ 15 → (n = 0 ∨ s.slotForeign p g.ctx n = false) → s.slotWidth p n = s.slotWidth p sp.kwslot → m = w.unexited &&& ~~~w.held →
       ∃ t, exec i s = .next t ∧ s.committed t (if o.v then [] else [.scal o.d.toNat (BitVec.ofNat 32 sp.kwslot)]) s.pastStep ∧ (t.warp s.actor).sp.kwslot = n ∧ (t.warp s.actor).mode = w.mode ∧
         (t.warp s.actor).sp.emuvec = if n = 0 then sp.emuvec else BitVec.ofNat 32 (imgEmuvec ks.image) + ks.base) ∧
     (∀ i ∈ [Instr.kwret o], i.wellFormed = true → w.poisoned i m = none → s.closing → o.e = true → w.mode = .emu → m = sp.tmask &&& ~~~w.exited →
       (let q := sp.tinfo.toNat / 2 ^ 8 % 16
        s.slotForeign p g.ctx q = false →
        ∃ t, exec i s = .next t ∧ (t.warp s.actor).mode = .normal ∧ (t.warp s.actor).held = 0#32 ∧ (t.warp s.actor).sp.kwslot = q ∧
          ((∀ r, o.s0 ≠ .vec r) → s.committed t [] (s.branched m (fun _ => sp.tpc + BitVec.ofNat 32 (sp.tinfo.toNat / 2 ^ 4 % 16)))) ∧
          (∀ r, o.s0 = .vec r → s.committed t [] (s.branched m (fun l => w.vword r.toNat l))))) ∧
     (∀ (i : Instr) (x : XOp) (img : List Byte), i = .kwload x → i.wellFormed = true → w.poisoned i m = none →
       (let b (k : Nat) : Nat := (w.sword (Src.num x.s0 + k)).toNat
        let k := b 0
        let old := (s.part p).slots.get k
        k ≠ 0 → k ≤ 15 → b 1 % 64 = 0 → s.goodImage (b 1) (b 2) img → job i x.e x.v x.d.toNat .keyway (fun t j =>
          (old.valid = true → j.val = 1#32 ∧ t.parts = s.parts) ∧
          (old.valid = false → j.val = 0#32 ∧ (t.part p).slots.get k = ({ valid := true, owner := g.ctx, base := BitVec.ofNat 32 (objOf (b 1) * 2 ^ 28), image := img } : KeySlot) ∧
            ∀ r, r ≠ k → (t.part p).slots.get r = (s.part p).slots.get r)))) ∧
     (∀ (i : Instr) (img : List Byte), i = .kwswap o → i.wellFormed = true → w.poisoned i m = none → n ≠ 0 → n ≤ 15 →
       (let va := (s.srcW o.s1 0).toNat
        let held := ks.oldValid && s.slotBound p n
        s.goodImage va (s.srcW o.s2 0).toNat img →
        (s.slotForeign p g.ctx n = false → imgGen img ≠ imgGen ks.image ∧ (held = true → imgGen img ≠ imgGen ks.oldImage)) →
        job i o.e o.v o.d.toNat .keyway (fun t j =>
          (s.slotForeign p g.ctx n = true → j.val = 2#32 ∧ t.parts = s.parts) ∧
          (s.slotForeign p g.ctx n = false → held = true → j.val = 1#32 ∧ t.parts = s.parts) ∧
          (s.slotForeign p g.ctx n = false → held = false → j.val = 0#32 ∧ (slot t).valid = true ∧ (slot t).owner = g.ctx ∧ (slot t).image = img ∧ (slot t).base = BitVec.ofNat 32 (objOf va * 2 ^ 28) ∧
            (∀ u, s.residentWarp (s.warp u) = true → s.partOf (s.warp u) = p → (s.warp u).sp.kwslot = n → (t.warp u).bound = n ∧ (slot t).oldValid = true ∧ (slot t).oldImage = ks.image))))) ∧
     (∀ i, i = Instr.kwinv o → i.wellFormed = true → w.poisoned i m = none → n ≠ 0 → n ≤ 15 → job i o.e o.v o.d.toNat .keyway (fun t j =>
       (s.slotForeign p g.ctx n = true → j.val = 2#32 ∧ t.parts = s.parts) ∧
       (s.slotForeign p g.ctx n = false →
         ((∃ u, s.residentWarp (s.warp u) = true ∧ s.ckOf (s.warp u) = s.ckOf w ∧ ((s.warp u).sp.kwslot = n ∨ (s.warp u).bound = n)) → j.val = 1#32 ∧ t.parts = s.parts) ∧
         ((∀ e ∈ s.warps, ¬ (s.residentWarp e.2 = true ∧ s.ckOf e.2 = s.ckOf w ∧ (e.2.sp.kwslot = n ∨ e.2.bound = n))) → j.val = 0#32 ∧ slot t = ({} : KeySlot))))) ∧
     (∀ i, i = Instr.tlbinv o → i.wellFormed = true → w.poisoned i m = none → s.heldStores = [] →
       (let sel := n
        let win := sel % 8
        let all := decide (sel / 8 % 2 = 1)
        let va := (s.srcW o.s2 0).toNat * 2 ^ 32 + (s.srcW o.s1 0).toNat
        let base := if win = 3 then 4096 else 65536
        let hit (k : Nat) : Prop := all = true ∨ k = va / base
        let leads (k size : Nat) : Prop := k % 2 ^ 48 / 2 ^ 36 = 8 * s.ckOf w + win ∧ (all = true ∨ k % 2 ^ 36 * base / size = va / base * base / size)
        let table (k : Nat) : Prop := k % 2 ^ 58 / 2 ^ 46 = 8 * s.ckOf w + win ∧ (all = true ∨ va / base * base / 2 ^ (k % 2 ^ 46 / 2 ^ 40) = k % 2 ^ 40)
        sel < 16 → win ≠ 4 → win ≠ 6 → win ≠ 7 → (all = true ∨ win = 2 ∨ win = 3 ∨ (s.srcW o.s2 0).toNat = 0) →
        job i o.e o.v o.d.toNat .tlbinv (fun t j => j.val = 0#32 ∧
          (∀ k, (leads k (s.tlb.get k).size → t.tlb.get k = ({} : TlbEntry)) ∧ (¬ leads k (s.tlb.get k).size → t.tlb.get k = s.tlb.get k)) ∧
          (∀ k, (table k → t.walks.get k = 0#64) ∧ (¬ table k → t.walks.get k = s.walks.get k)) ∧
          (win = 0 → ∀ k, hit k → (t.ctx (s.ckOf w)).codePages.get k = .unverified)))) ∧
     (∀ (i : Instr) (x : XOp), i = .wipe x → i.wellFormed = true → w.poisoned i m = none →
       (let b (k : Nat) : Nat := (w.sword (Src.num x.s0 + k)).toNat
        let kind := x.x.toNat % 4
        let a := if kind = 1 then b 1 * 2 ^ 32 + b 0 else b 0
        (kind = 2 → b 1 = 0 → a % 128 = 0 → b 2 % 128 = 0 → b 2 ≠ 0 → a + b 2 ≤ g.gangSize → job i x.e x.v x.d.toNat .wipe (fun _ j => j.val = 0#32 ∧ j.ranges = [(gangLoc w.gang a, b 2)])) ∧
        (∀ (f : Nat → Nat) (tso : Nat → Bool), kind = 0 ∨ kind = 1 → (kind = 0 → b 1 = 0) → a % 65536 = 0 → b 2 % 65536 = 0 → b 2 ≠ 0 → a + b 2 ≤ (if kind = 1 then 2 ^ 40 else 2 ^ 32) →
          (∀ k, k < b 2 / 65536 → s.translate p g.ctx (if kind = 1 then .hbm else .scr) .write true (a + 65536 * k) = .ok (f k) (tso k)) →
          job i x.e x.v x.d.toNat .wipe (fun _ j => j.val = 0#32 ∧ j.ranges = (List.range (b 2 / 65536)).map (fun k => (f k, 65536))))))) ∧
  (∀ (s : State) (id : Nat), s.jobReady id = true →
     let j := s.jobs.get id
     let w := s.warp j.warp
     let told (t : State) : Prop := t.jobs.get id = ({} : Job) ∧ (∀ k, k ≠ id → t.jobs.get k = s.jobs.get k) ∧ (t.warp j.warp).regs = w.regs ∧
       (w.live = true → w.replies.any (fun e => e.1 == j.reply) = true →
         let y := (t.warp j.warp).replies.get j.reply
         y.have_ = true ∧ y.vals = [Lanes.splat j.val])
     let others (t : State) : Prop := ∀ v, v ≠ j.warp → t.warp v = s.warp v
     (j.kind = .keyway → ∃ t, exec (.keywayStatusWrite id) s = .next t ∧ told t ∧ others t ∧ t.mem = s.mem) ∧
     (j.kind = .tlbinv → s.allEnded j.waits = true → ∃ t, exec (.tlbinvStatusWrite id) s = .next t ∧ told t ∧ others t ∧ t.mem = s.mem) ∧
     (j.kind = .wipe → ∃ t, exec (.wipeCompletion id) s = .next t ∧ told t ∧ (j.wiped = true → t.mem = s.mem) ∧
       (j.wiped = false → ∀ r ∈ j.ranges, ∀ a, r.1 ≤ a → a < r.1 + r.2 → t.byte a = 0#8 ∧ t.line a = .present ∧ t.poisonLine.get (a / 128) = false ∧ t.poisonUnit.get (a / 16) = false) ∧
       (s.heldStores = [] → (∀ e ∈ s.warps, e.2.replies.all (fun r => r.2.late.isEmpty && !r.2.acq && !r.2.bump) = true) →
         (∀ v, v ≠ j.warp → { t.warp v with woken := (s.warp v).woken } = s.warp v) ∧ ∀ a, (∀ r ∈ j.ranges, a < r.1 ∨ r.1 + r.2 ≤ a) → t.byte a = s.byte a)))

/-! ### Admission, saving and the gang watchdog (R277 to R289, R351, R352) -/

/-- The launch at the head of its partition's queue is admitted where it fits: a gang starts at the chosen core with the first 256 message bytes in its memory and a warp for each role place, its lanes at the role's entry and its
registers zero. A pre-empted gang begins to stop; a save's drain limit tags what its lost replies would have written; the quadrants on which a gang may stand are a rearrangement of its group's that keeps those of a core together;
the watchdog stops the gang, and once every warp stands at a boundary the lowest unretired one takes WATCHDOG (R146, R276 to R282, R289, R352). The model's own readings in it are log entries 48, 51, 68 (the VPC of an absent lane
is zero) and 88. -/
def Obligations.SchedulingEvents : Prop :=
  (∀ (s : State) (p h : Nat) (pl : Place × Option RsvPlace),
    let l := s.launch h
    let d := l.words
    (s.part p).dump = none → s.queueHead p = some h → s.demand h = some (.start 1) → s.takePlaces h = s → s.demandPlaces p h (.start 1) [] [] 0 = some [pl] → l.haltNew = false →
    ∃ t g, exec (.gangAdmission p) s = .next t ∧ (t.launch h).started = l.started + 1 ∧
      (let x := t.gang g
       x.place = .resident ∧ x.launch = h ∧ x.gangId = l.started ∧ x.part = l.part ∧ x.ctx = l.ctx ∧ x.coreBase = pl.1.core ∧ x.assign = pl.1.assign ∧ x.cores = dsCores d ∧ x.gangSize = dsGangMem d ∧
       x.warps.length = (warpRoles d).length ∧ t.bytes (gangLoc g 0) (min 256 l.msgs.length) = l.msgs.take 256 ∧
       ∀ i r, (warpRoles d)[i]? = some r →
         (let w := t.warp (x.warps.getD i 0)
          w.live = true ∧ w.gang = g ∧ w.wid = i ∧ w.role = r ∧ w.vbudget = roVregs d r ∧ w.sbudget = roSregs d r ∧ w.present = s.presentLanes l.part l.ctx (roSlot d r) ∧ w.exited = 0#32 ∧ w.mode = .normal ∧
          w.sp.kwslot = roSlot d r ∧ w.regs = ({} : Regs) ∧ w.wait = .ready ∧ w.quad = x.physQuad (i % (4 * dsCores d)) ∧ ∀ k, k < 32 → w.vpcAt k = if w.present.has k then BitVec.ofNat 32 (roEntry d r) else 0#32))) ∧
  (∀ (s : State) (p h : Nat) (d : Demand) (gs : List Nat), (s.part p).dump = none → s.queueHead p = some h → s.takePlaces h = s → s.demand h = some d → s.demandPlaces p h d [] [] 0 = none →
    (let stopping := (s.gangs.filter (fun e => e.2.part == p && e.2.place == .stopping)).map (·.1)
     s.victims p h d (((s.gangs.keys).filter (s.preemptible h)).foldl (fun a g => s.insertVictim g a) []) stopping = some gs → stopping.length < gs.length →
     ∃ t, exec (.gangAdmission p) s = .next t ∧ (t.part p).madeFor = some h ∧ s.sameBytes t ∧ (∀ u, t.warp u = s.warp u) ∧
       (∀ g ∈ gs, (s.gang g).place = .resident → (t.gang g).place = .stopping) ∧ ∀ g, g ∉ gs → t.gang g = s.gang g)) ∧
  (∀ (s : State) (g : Nat), (s.gang g).place = .resident →
    ((s.launch (s.gang g).launch).cls ≠ 0 → exec (.supervisorPreempt g) s = .next (s.updGang g (fun x => { x with place := .stopping, stopClock := s.clock }))) ∧
    ((s.launch (s.gang g).launch).cls = 0 → ∃ t, exec (.supervisorPreempt g) s = .next t ∧ s.sameBytes t ∧ (∀ u, t.warp u = s.warp u) ∧
      ∀ k, (s.gang k).place = .resident → (s.gang k).launch = (s.gang g).launch → (t.gang k).place = .stopping)) ∧
  (∀ (s : State) (g : Nat), s.drainOver g = true →
    ∃ t, exec (.saveDrainTimeout g) s = .next t ∧ s.sameBytes t ∧ (∀ u, (t.warp u).regs.vec = (s.warp u).regs.vec ∧ (t.warp u).regs.scal = (s.warp u).regs.scal) ∧ (∀ u, u ∉ s.liveWarps g → t.warp u = s.warp u) ∧
      ∀ u ∈ s.liveWarps g, (t.warp u).replies.any (fun e => e.2.drains) = false ∧
        ∀ id r, (id, r) ∈ (s.warp u).replies → (s.warp u).replies.get id = r → r.drains = true → ∀ j l, j < r.n → l < 32 → r.lanes.has l = true →
          ∃ a, (t.warp u).regs.vtag.get (32 * (r.base + j) + l) = ({ cause := cREPLY_LOST, addr := a } : Tag)) ∧
  (∀ C n, C ≤ 8 → (assignOf C n).length = 4 * C ∧ (assignOf C n).Nodup ∧ (∀ q ∈ assignOf C n, q < 4 * C) ∧
    ∀ i j, i < 4 * C → j < 4 * C → (i / 4 = j / 4 ↔ (assignOf C n).getD i 0 / 4 = (assignOf C n).getD j 0 / 4)) ∧
  ∀ (s : State) (g u : Nat), s.wdogDue g = true → (s.liveWarps g).head? = some u →
    let l := s.launch (s.gang g).launch
    let st := (s.warp u).standing
    (s.atBoundary g = false → exec (.gangWatchdogExpiry g) s = .next (s.updGang g (fun x => { x with stop := true, wdPend := true }))) ∧
    (s.atBoundary g = true → ∃ t, exec (.gangWatchdogExpiry g) s = .next t ∧ (t.gang g).stop = true ∧ (t.gang g).wdPend = false ∧ (t.gang g).wdWarp = some u ∧ s.sameBytes t ∧
      (t.warp u).trapped cWATCHDOG st.1 (BitVec.ofNat 32 (wdogPeriod l.words)) (BitVec.ofNat 32 (65536 * l.desc)) st.2 ∧ (t.warp u).mode = .sup ∧ (t.warp u).regs = (s.warp u).regs ∧
      ∀ v ∈ s.liveWarps g, v ≠ u → t.warp v = (s.warp v).toBoundary)

/-! ### Killing, resets and errors (R242, R290, R348, R354 to R359) -/

/-- GANG_KILL retires warps of a gang or of its launch. A killed context leaves nothing: its gangs retire, its pages are wiped and freed, the accumulators it owned are cleared, and the log says why. A partition reset kills every
context, wipes the storage but the supervisor's object and logs its trigger; it waits for the end of a dump, and the management controller refuses its command from a port that it does not admit. RECORD_CONSUME takes the oldest
entries of a ring (R290, R348, R357 to R359). The model's own readings in it are log entries 44 and 45. -/
def Obligations.KillAndReset : Prop :=
  (∀ (s : State) (g : Nat), (s.gang g).place = .resident ∨ (s.gang g).place = .saved ∨ (s.gang g).place = .stopping →
    (∀ u ∈ (s.gang g).warps, (s.warp u).gang = g) → (∃ u ∈ (s.gang g).warps, (s.warp u).live = true) →
    (∀ k, (s.gang k).image = []) →
    ((s.launch (s.gang g).launch).cls ≠ 0 → ∃ t, exec (.gangKill g false) s = .next t ∧ (t.gang g).place = .retired ∧ (∀ u ∈ (s.gang g).warps, (t.warp u).live = false) ∧ s.sameBytes t) ∧
    (∃ t, exec (.gangKill g true) s = .next t ∧ s.sameBytes t ∧ ∀ k, (s.gang k).launch = (s.gang g).launch → (s.gang k).place ≠ .retired → (s.gang k).place ≠ .absent → ∀ u ∈ (s.gang k).warps, (t.warp u).live = false)) ∧
  (∀ (s : State) (ck : Nat), (s.ctx ck).live = true → ∀ x ∈ [(Instr.killRequest ck, 1), (Instr.driverKillRequest ck, 2)], ∃ t r, exec x.1 s = .next t ∧
    t.ctx ck = ({} : Ctx) ∧ (∀ k, k ≠ ck → t.ctx k = s.ctx k) ∧ (t.part (ck / 64)).log = (s.part (ck / 64)).log ++ [r] ∧ r.cause = cCONTEXT_KILLED ∧ r.taddr = BitVec.ofNat 32 (ck % 64) ∧ r.tinfo = BitVec.ofNat 32 x.2 ∧
    (∀ g, (s.gang g).place ≠ .absent → (s.gang g).part = ck / 64 → (s.gang g).ctx = ck % 64 → (t.gang g).place = .retired ∧ ∀ u ∈ (s.gang g).warps, t.warp u = ({} : Warp)) ∧
    (∀ q, (s.part (ck / 64)).hasSec (quadSection q) = true → (s.quad q).owner = some (ck % 64) → (t.quad q).owner = none ∧ (t.quad q).rows = [] ∧ (t.quad q).queue = []) ∧
    (∀ k, (k, ck % 64 + 1) ∈ s.owners → k / 2 ^ 26 = ck / 64 → t.owners.get k = 0 ∧ ∀ a, a / 65536 = k → t.byte a = 0#8)) ∧
  (∀ (s : State) (p : Nat), (s.part p).live = true → s.mc.admits = true → ∀ x ∈ [(Instr.partitionWatchdogExpiry p, 1), (Instr.functionLevelReset p, 2), (Instr.reset p, 3), (Instr.uncorrectableError (.partition p) false, 4)],
    (x.2 = 1 → partClocks ≤ (s.part p).pwdog) →
    ((s.part p).dump = none → ∃ t r, exec x.1 s = .next t ∧
      (let q := t.part p
       q.live = true ∧ q.log.getLast? = some r ∧ r.cause = cPARTITION_RESET ∧ r.taddr = BitVec.ofNat 32 x.2 ∧ r.seq = 0#32 ∧ q.seqctr = 1#32 ∧ q.slots = [] ∧ q.timers = [] ∧ q.mailbox = [] ∧ q.pwdog = 0 ∧ q.firing = 0) ∧
      (∀ k, k / 64 = p → (t.ctx k).live = false) ∧ (∀ k, k / 64 ≠ p → t.ctx k = s.ctx k) ∧ (∀ k, k ≠ p → t.part k = s.part k) ∧ t.fns.get p = ({} : HostFn) ∧
      ∀ a, ppaLoc p 0 ≤ a → a < ppaLoc p 0 + 2 ^ 42 → (s.part p).supPage ((a - ppaLoc p 0) / 65536) = false → t.byte a = 0#8) ∧
    (∀ d, (s.part p).dump = some d → ∃ t, exec x.1 s = .next t ∧ (t.part p).dump = some { d with trigger := d.trigger.or (some x.2) } ∧ t.ctxs = s.ctxs ∧ s.sameBytes t)) ∧
  (∀ (s : State) (p : Nat), s.mc.admits = false → exec (.reset p) s = .next (s.say .refused)) ∧
  (∀ (s : State) (p : Nat), (s.part p).live = true → exec (.partitionWatchdogRestart p) s = .next (s.updPart p (fun x => { x with pwdog := 0 }))) ∧
  ∀ (s : State) (ck n : Nat),
    (∃ t, exec (.recordConsume ck n false) s = .next t ∧ (t.ctx ck).ring = (s.ctx ck).ring.drop n ∧ (t.ctx ck).dbg = (s.ctx ck).dbg ∧ s.sameBytes t) ∧
    (∃ t, exec (.recordConsume ck n true) s = .next t ∧ (t.ctx ck).dbg.ring = (s.ctx ck).dbg.ring.drop n ∧ (t.ctx ck).ring = (s.ctx ck).ring ∧ s.sameBytes t)

/-- An uncorrectable error does what R354 gives its place and, for a line of memory, records MACHINE_CHECK with the structure's code: a register word or a line or unit of memory or a segment of an accumulator is poisoned, a port
is quarantined, a pattern is disarmed, a heap entry is lost and its heap inexact, a barrier breaks, a timer entry ends, clean copies are dropped, an outstanding host read aborts and a posted host write is lost, a link retrains, a
context is killed. A corrected error only counts (R354, R355). The model's own readings in it are log entry 40. -/
def Obligations.UncorrectableErrors : Prop :=
  (∀ (s : State) (site : ErrSite), (∃ t, exec (.uncorrectableError site true) s = .next t ∧ s.sameBytes t ∧ (∀ u, t.warp u = s.warp u) ∧
    (t.part (s.sitePart site)).corrected.get (siteCode site) = (s.part (s.sitePart site)).corrected.get (siteCode site) + 1)) ∧
  (∀ (s : State) (u r l : Nat), (s.warp u).live = true →
    (∃ t, exec (.uncorrectableError (.vreg u r l) false) s = .next t ∧ (t.warp u).regs.vtag.get (32 * r + l) = ({ cause := cPOISON } : Tag) ∧ (t.warp u).regs.vec = (s.warp u).regs.vec ∧ s.sameBytes t) ∧
    (∃ t, exec (.uncorrectableError (.sreg u r) false) s = .next t ∧ (t.warp u).regs.stag.get r = ({ cause := cPOISON } : Tag) ∧ (t.warp u).regs.scal = (s.warp u).regs.scal ∧ s.sameBytes t)) ∧
  (∀ (s : State) (p a : Nat), ∀ site ∈ [ErrSite.scratch p a, ErrSite.hbm p a], ∃ t, exec (.uncorrectableError site false) s = .next t ∧ t.poisonLine.get (ppaLoc p a / 128) = true ∧ s.sameBytes t ∧
    ∀ c, s.owner p a = c → c < 64 → (s.ctx (ctxKey p c)).live = true → (s.ctx (ctxKey p c)).ring.length < 256 →
      ∃ r, (t.ctx (ctxKey p c)).ring = (s.ctx (ctxKey p c)).ring ++ [r] ∧ r.cause = cMACHINE_CHECK ∧ r.taddr = BitVec.ofNat 32 a ∧ r.tinfo = BitVec.ofNat 32 (siteCode site)) ∧
  (∀ (s : State) (g n : Nat), ∃ t, exec (.uncorrectableError (.gangMem g n) false) s = .next t ∧ t.poisonUnit.get (gangLoc g (16 * n) / 16) = true ∧ s.sameBytes t) ∧
  (∀ (s : State) (q k : Nat), k < 6 → ∃ t, exec (.uncorrectableError (.acc q k) false) s = .next t ∧ (t.quad q).segPoison = (s.quad q).segPoison ||| 2 ^ k ∧ (t.quad q).rows = (s.quad q).rows ∧ s.sameBytes t) ∧
  (∀ (s : State) (g b : Nat), (s.gang g).halted = false → s.midStep g = false → ∃ t, exec (.uncorrectableError (.barrier g b) false) s = .next t ∧
    ((t.gang g).barrier b).broken = true ∧ ((t.gang g).barrier b).phase = ((s.gang g).barrier b).phase + 1#32 ∧ ((t.gang g).barrier b).count = 0 ∧ s.sameBytes t) ∧
  (∀ (s : State) (c n : Nat), (s.pat (patKey c n)).armed = true → ∃ t, exec (.uncorrectableError (.pattern c n) false) s = .next t ∧ (t.pat (patKey c n)).armed = false ∧ s.sameBytes t) ∧
  (∀ (s : State) (p : Nat), ∃ t, exec (.uncorrectableError (.cacheCopy p) false) s = .next t ∧ s.sameBytes t ∧ (∀ u, t.warp u = s.warp u) ∧
    ∀ c, (s.part p).hasSec (clusterSection c) = true → (t.cluster c).l1 = [] ∧ (t.cluster c).dcache = [] ∧ (t.cluster c).icode = []) ∧
  (∀ (s : State) (c n i : Nat), ∃ t, exec (.uncorrectableError (.slot c n i) false) s = .next t ∧ (t.port (portKey c n)).quar = true ∧
    ∀ m, (s.port (portKey c n)).msgs[i]? = some m → (t.port (portKey c n)).msgs[i]? = some { m with mflags := m.mflags ||| 1 }) ∧
  (∀ (s : State) (c n : Nat), ∃ t, exec (.uncorrectableError (.port c n) false) s = .next t ∧ (t.port (portKey c n)).quar = true) ∧
  (∀ (s : State) (c h i : Nat), (s.heaps.get (heapKey c h)).entry i ≠ .absent → ∃ t, exec (.uncorrectableError (.heapEntry c h i) false) s = .next t ∧
    (t.heaps.get (heapKey c h)).entry i = .absent ∧ (t.heaps.get (heapKey c h)).inexact = true) ∧
  (∀ (s : State) (p h : Nat), ((s.part p).timers.get h).live = true → ∃ t, exec (.uncorrectableError (.timer p h) false) s = .next t ∧ ((t.part p).timers.get h).live = false) ∧
  (∀ (s : State) (k : Nat), ∃ t, exec (.uncorrectableError (.fabric k) false) s = .next t ∧ (t.links.get k).retraining = true ∧ (t.links.get k).fails = 0) ∧
  (∀ (s : State) (u id : Nat), (s.warp u).live = true → ((s.warp u).replies.get id).host = true → ∃ t, exec (.uncorrectableError (.pcie u id) false) s = .next t ∧
    (let r := (t.warp u).replies.get id
     r.have_ = true ∧ ∀ l, l < 32 → r.fails.get l = if ((s.warp u).replies.get id).fails.get l = 0 then cHOST_ABORT else ((s.warp u).replies.get id).fails.get l)) ∧
  (∀ (s : State) (u id : Nat), ((s.warp u).replies.get id).host = false → (s.hostStores.get id).live = true → (s.hostStores.get id).warp = u →
    ∃ t, exec (.uncorrectableError (.pcie u id) false) s = .next t ∧ (t.hostStores.get id).live = false ∧ s.sameBytes t) ∧
  ∀ (s : State) (c : Nat), (s.ctx c).live = true → ∃ t r, exec (.uncorrectableError (.wholeContext c) false) s = .next t ∧ t.ctx c = ({} : Ctx) ∧
    (t.part (c / 64)).log = (s.part (c / 64)).log ++ [r] ∧ r.cause = cCONTEXT_KILLED ∧ r.tinfo = 3#32

/-! ### The mailbox, page placement and context creation (R192, R393, R399, R400, R426) -/

/-- The control cores answer the oldest request of a partition at its reply port with its tag, a status and a count: a malformed one with 2, an allocation past quota or free storage with 1, and a served one with 0 and its effect.
ALLOC gives distinct free pages to the context and writes their addresses; FREE wipes pages and frees them; PLACE writes each page's section; MBOXEN sets the context's user-mailbox bit (R399, R400, R426). The model's own readings
in it are log entry 46. -/
def Obligations.MailboxRequests : Prop :=
  ∀ (s : State) (p : Nat) (r : MailReq), (s.part p).live = true → (s.part p).mailbox ≠ [] → s.mailReq p = some r → s.canPost p r.ctx r.port = true →
    let ck := ctxKey p r.ctx
    let x := s.ctx ck
    let ppas := (List.range r.n).map (s.mailPpa r)
    let pref := if r.w2 / 256 % 16 = 0 then none else some (r.w2 / 256 % 16 - 1)
    let give (pages : List Nat) : State := (pages.zipIdx).foldl (fun s k => s.mailPut r k.2 (65536 * k.1)) (s.takePages p r.ctx pages)
    let fresh (pages : List Nat) (lo hi : Nat) : Prop := pages.Nodup ∧ (∀ k ∈ pages, lo ≤ k ∧ k < hi ∧ s.owner p (65536 * k) = 0x7F) ∧
      ∀ k ∈ pages, (s.takePages p r.ctx pages).owners.get (ppaLoc p (65536 * k) / 65536) = r.ctx + 1
    (∀ (t : State) (st d : Nat), t.parts = s.parts → t.ports = s.ports →
      (let y := s.port (portKey ck r.port)
       y.valid = true → y.quar = false → y.resident = true → 0 < y.free →
       ((t.mailAnswer r st d).part p).mailbox = (s.part p).mailbox.drop 1 ∧
       ∃ m, ((t.mailAnswer r st d).port (portKey ck r.port)).msgs = y.msgs ++ [m] ∧ m.kind = 9 ∧ m.payload = [r.tag, BitVec.ofNat 32 st, BitVec.ofNat 32 d])) ∧
    (∀ q ∈ [(1, Instr.allocScr p), (2, Instr.allocHbm p), (3, Instr.free p), (4, Instr.place p)], r.opc = q.1 → r.formOk = false → exec q.2 s = .next (s.mailAnswer r 2 0)) ∧
    (r.opc = 1 → r.formOk = true → x.squota < s.pagesOf p r.ctx true + r.n → exec (.allocScr p) s = .next ((s.record p r.ctx cSCRATCH_QUOTA r.w3 (BitVec.ofNat 32 x.squota) noUnit noUnit).mailAnswer r 1 0)) ∧
    (r.opc = 1 → r.formOk = true → s.pagesOf p r.ctx true + r.n ≤ x.squota →
      (let pages := s.freeScr p r.n pref
       (pages.length < r.n → exec (.allocScr p) s = .next (s.mailAnswer r 1 0)) ∧
       (pages.length = r.n → exec (.allocScr p) s = .next ((give pages).mailAnswer r 0 r.n) ∧ fresh pages (scrPpa / 65536) (scrPpa / 65536 + 2048 * (s.part p).nsec)))) ∧
    (r.opc = 2 → r.formOk = true →
      (let pages := s.freeHbm p r.n
       (x.hquota < s.pagesOf p r.ctx false + r.n ∨ pages.length < r.n → exec (.allocHbm p) s = .next (s.mailAnswer r 1 0)) ∧
       (s.pagesOf p r.ctx false + r.n ≤ x.hquota → pages.length = r.n → exec (.allocHbm p) s = .next ((give pages).mailAnswer r 0 r.n) ∧ fresh pages 0 (2 ^ 20 * (s.part p).nsec)))) ∧
    (r.opc = 3 → r.formOk = true → (∀ a ∈ ppas, a % 65536 = 0 ∧ s.ppaInside p a = true ∧ s.owner p a = r.ctx ∧ s.inDomain p (a / 65536) = false ∧ s.pageBusy p (a / 65536) = false) →
      ∃ t : State, exec (.free p) s = .next (t.mailAnswer r 0 r.n) ∧ (∀ a ∈ ppas, t.owner p a = 0x7F) ∧ (∀ a ∈ ppas, ∀ off, off < 65536 → t.byte (ppaLoc p a + off) = 0#8) ∧
        (s.heldStores = [] → ∀ b, (∀ a ∈ ppas, b < ppaLoc p a ∨ ppaLoc p a + 65536 ≤ b) → t.byte b = s.byte b)) ∧
    (r.opc = 3 → r.formOk = true → (∃ a ∈ ppas, a % 65536 ≠ 0 ∨ s.ppaInside p a = false ∨ s.owner p a ≠ r.ctx ∨ s.inDomain p (a / 65536) = true) → exec (.free p) s = .next (s.mailAnswer r 3 0)) ∧
    (r.opc = 4 → r.formOk = true →
      ((∀ a ∈ ppas, s.ppaInside p (a % 2 ^ 56) = true ∧ s.owner p (a % 2 ^ 56) = r.ctx ∧ s.inDomain p (a % 2 ^ 56 / 65536) = false) →
        exec (.place p) s = .next (((ppas.zipIdx).foldl (fun s y => s.mailPut r y.2 (putBits y.1 56 3 (s.sectionOf p (y.1 % 2 ^ 56 / 65536)))) s).mailAnswer r 0 r.n)) ∧
      ((∃ a ∈ ppas, s.ppaInside p (a % 2 ^ 56) = false ∨ s.owner p (a % 2 ^ 56) ≠ r.ctx ∨ s.inDomain p (a % 2 ^ 56 / 65536) = true) → exec (.place p) s = .next (s.mailAnswer r 3 0))) ∧
    (r.opc = 5 → r.w0 / 256 % 256 = 0 → r.w2 < 2 → ∃ t : State, exec (.mboxen p) s = .next (t.mailAnswer r 0 0) ∧ (t.ctx ck).mboxUser = decide (r.w2 = 1) ∧ (∀ k, k ≠ ck → t.ctx k = s.ctx k) ∧ s.sameBytes t)

/-- CTXGO reads the creation record and its objects: it refuses with reasons 1 to 4 and no context, or makes the lowest free CTXID live, its supervisor entry, quotas, digests and descriptors as given, each role's ENTRY with its
object's base, and every code page unverified. PAGE_MIGRATION moves a scratchpad page's home section and nothing else (R78, R192, R320, R393, R394). The model's own readings in it are log entries 41 and 95. -/
def Obligations.ContextCreation : Prop :=
  (∀ (s : State) (fn c : Nat) (x : Install), s.mc.created = true → (s.part fn).live = true →
    let word (off : Nat) : Nat := s.creationWord fn off 4
    let nobj := word 12
    let objs := (List.range (min nobj 8)).map (fun k => readObj (fun off n => s.bytes (hostLoc (s.creationWord fn (16 + 8 * k) 8 + off)) n))
    let no (r : Nat) : State := s.setCtxstat fn 0xFFFFFFFF#32 r
    let formed := word 0 % 8 = 0 ∧ nobj ≠ 0 ∧ nobj ≤ 8 ∧ ∀ o ∈ objs, o.len ≤ 2 ^ 28
    (¬ formed → exec (.ctxgo fn x) s = .next (no 1)) ∧
    (formed → (∀ k, k < 64 → (s.ctx (ctxKey fn k)).live = true) → exec (.ctxgo fn x) s = .next (no 2)) ∧
    (formed → c < 64 → (s.ctx (ctxKey fn c)).live = false → (∀ k, k < c → (s.ctx (ctxKey fn k)).live = true) →
      exec (.ctxgo fn x) s = .next (
        if (objs.all (fun o => o.ok && (s.objKey fn (·.usr) o).isSome) && x.heaps.all (fun h => h.thresh.toNat ≤ gMax.toNat && h.tol.toNat ≤ gMax.toNat)) = false then no 3
        else if (s.freeScr fn (word 4) none).length < word 4 ∨ (s.freeHbm fn (word 8)).length < word 8 then no 4
        else match s.buildCtx fn c objs x with
          | none => no 4
          | some t => t.setCtxstat fn (BitVec.ofNat 32 c) 0))) ∧
  (∀ (s t : State) (fn c : Nat) (objs : List CodeObj) (x : Install), objs.length ≤ 8 → (∀ o ∈ objs, o.digests.length ≤ 4096) → s.buildCtx fn c objs x = some t →
    (let y := t.ctx (ctxKey fn c)
     y.live = true ∧ y.supEntry = BitVec.ofNat 32 (0xF0000000 + s.creationWord fn 0 4) ∧ y.squota = s.creationWord fn 4 4 ∧ y.hquota = s.creationWord fn 8 4 ∧ (∀ k, y.codePages.get k = .unverified) ∧
     (∀ k o, objs[k]? = some o → y.objLen.get k = o.len ∧ ∀ i d, o.digests[i]? = some d → y.digests.get (4096 * k + i) = d) ∧
     (∀ i d, (s.part fn).supDigests[i]? = some d → y.digests.get (0xF000 + i) = d) ∧
     ∀ n k d, x.descs[n]? = some (k, d) → n < 4096 → ∀ i, i < 32 → i < d.length → (y.descs.get n).getD i 0#32 =
       (if i % 4 = 0 ∧ 8 ≤ i ∧ i < 8 + 4 * dsRoles (d.take 32) then d.getD i 0#32 + BitVec.ofNat 32 (2 ^ 28 * k) else d.getD i 0#32)) ∧
    ∀ k, k ≠ ctxKey fn c → t.ctx k = s.ctx k) ∧
  ∀ (s : State) (p page sec : Nat), (s.part p).live = true → scrPpa / 65536 ≤ page → s.ppaInside p (65536 * page) = true → (s.part p).hasSec sec = true → page < 2 ^ 26 →
    ∃ t, exec (.pageMigration p page sec) s = .next t ∧ t.sectionOf p page = sec ∧ (∀ k, k ≠ page → t.sectionOf p k = s.sectionOf p k) ∧
      (∀ q k, q ≠ p → k < 2 ^ 26 → t.sectionOf q k = s.sectionOf q k) ∧ ({ t with placed := s.placed } : State) = s

/-! ### The host link, the PHC and the fabric (R174, R241 to R255, R380) -/

/-- The host's requests: a write of 32 bytes to the port window queues a message of KIND 6 or counts as bad; the aperture reads and writes the mapped page, an unmapped slot counting a dropped write or answering Unsupported
Request, as every AtomicOp is; a register takes its written fields. An overdue completion fails the lanes of its reply that still wait for one, and a lost host store is recorded (R174, R241 to R249, R361, R377). The model's own
readings in it are log entries 52, 53 and 57. -/
def Obligations.HostRequests : Prop :=
  ∀ (s : State) (fn off : Nat) (bytes : List Byte), (s.part fn).live = true →
    let f := s.fns.get fn
    let c := barCtx off
    let k := portKey (ctxKey fn c) (barPort off)
    let x := s.port k
    let good := bytes.length = 32 ∧ off % 32 = 0 ∧ c < 64 ∧ (s.ctx (ctxKey fn c)).live = true ∧ x.valid = true ∧ x.quar = false ∧ x.hostw = true
    let sets (i : Instr) (P : HostFn → Prop) : Prop := ∃ t, exec i s = .next t ∧ P (t.fns.get fn) ∧ (∀ n, n ≠ fn → t.fns.get n = s.fns.get n) ∧ s.sameBytes t ∧ ∀ u, t.warp u = s.warp u
    (good → x.resident = true → 0 < x.free → ∃ t m, exec (.hostPortWrite fn off bytes) s = .next t ∧ (t.port k).msgs = x.msgs ++ [m] ∧ m.kind = 6 ∧ m.sender = fn ∧
      m.payload = (List.range 6).map (fun i => BitVec.ofNat 32 (bytesNat ((bytes.drop (8 + 4 * i)).take 4))) ∧ (∀ q, q ≠ k → t.port q = s.port q) ∧ s.sameBytes t) ∧
    (¬ good → sets (.hostPortWrite fn off bytes) (fun y => y = { f with pwbad := min (f.pwbad + 1) 0xFFFF })) ∧
    (∀ page, f.slots.get (off / 65536) = page + 1 →
      (let loc := ppaLoc fn (65536 * page + off % 65536)
       (oneRequest 512 off bytes.length = true → ∃ t, exec (.hostApertureWrite fn off bytes) s = .next t ∧ (∀ i b, bytes[i]? = some b → t.byte (loc + i) = b) ∧
         (∀ a, a < loc ∨ loc + bytes.length ≤ a → t.byte a = s.byte a) ∧ ∀ u, t.warp u = s.warp u) ∧
       (∀ n, oneRequest 4096 off n = true → fn < 8 → sets (.hostApertureRead fn off n) (fun y => y = { f with unsupported := false, data := s.bytes loc n })))) ∧
    (f.slots.get (off / 65536) = 0 →
      (oneRequest 512 off bytes.length = true → sets (.hostApertureWrite fn off bytes) (fun y => y = { f with apdrop := min (f.apdrop + 1) 0xFFFF })) ∧
      (∀ n, oneRequest 4096 off n = true → fn < 8 → sets (.hostApertureRead fn off n) (fun y => y = { f with unsupported := true, data := [] }))) ∧
    (fn < 8 → sets (.hostAtomicop fn off) (fun y => y = { f with unsupported := true, data := [] })) ∧
    (∀ v : DWord,
      let lo := v.toNat % 2 ^ 32
      sets (.registerWrite (.pwstat fn) v) (fun y => y = { f with pwlost := lo / 65536, pwbad := lo % 65536 }) ∧
      sets (.registerWrite (.apstat fn) v) (fun y => y = { f with apdrop := lo % 65536 }) ∧
      sets (.registerWrite (.completionTimeout fn) v) (fun y => y = { f with timeout := lo }) ∧
      (off % 4 = 0 → off < 0x50 → sets (.registerWrite (.creation fn off) v) (fun y => (∀ i, i < 4 → (y.creation.get (off + i)).toNat = lo / 256 ^ i % 256) ∧ ∀ a, a < off ∨ off + 4 ≤ a → y.creation.get a = f.creation.get a)) ∧
      (off < 16384 → scrPpa ≤ v.toNat → v.toNat % 65536 = 0 → s.ppaInside fn v.toNat = true → sets (.registerWrite (.aperture fn off) v) (fun y => y.slots.get off = v.toNat / 65536 + 1)) ∧
      (∀ ck, s.attached ck = true → ∃ t, exec (.registerWrite (.dctl ck) v) s = .next t ∧ (t.ctx ck).dbg.dctl = v.setWidth 32 &&& 0xFFFF9FFF#32) ∧
      (∀ ck b, (s.ctx ck).live = true → b < 15 → off < 16 → ∃ t, exec (.registerWrite (.bin ck b off) v) s = .next t ∧
        (let y := (t.ctx ck).dbg.bins.get b
         y.slot = off ∧ y.base = v.setWidth 32 ∧ y.limit.toNat = v.toNat / 2 ^ 32 ∧ y.active = ((s.ctx ck).dbg.bins.get b).active))) ∧
    (∀ u id, (s.warp u).live = true → s.hostOverdue u id = true →
      ∃ t, exec (.hostCompletionTimeout u id) s = .next t ∧
        (let r := (s.warp u).replies.get id
         let y := (t.warp u).replies.get id
         y.have_ = true ∧ y.vals = r.vals ∧ ∀ l, l < 32 → y.fails.get l = if (s.dueLanes u id).has l then cHOST_ABORT else r.fails.get l) ∧ (t.warp u).regs = (s.warp u).regs ∧ s.sameBytes t) ∧
    ∀ id, (s.hostStores.get id).live = true →
      (let h := s.hostStores.get id
       let ck := if (s.warp h.warp).live then s.ckOf (s.warp h.warp) else h.ck
       ∃ t, exec (.hostStoreFail id) s = .next t ∧ t.hostStores.get id = ({} : HostStore) ∧ s.sameBytes t ∧ (∀ u, t.warp u = s.warp u) ∧
         ((s.ctx ck).ring.length < 256 → ∃ r, (t.ctx ck).ring = (s.ctx ck).ring ++ [r] ∧ r.cause = cHOST_ABORT ∧ r.taddr = h.addr))

/-- The PHC follows its sources: PTM alone, or the 1PPS edge, which marks the second nearest to PTM's time of day at the edge; it slews from at most 1 µs away and steps else, modulo 2^48 seconds; a lost source leaves holdover, and
its own pulse is driven once a second. A link retrains after eight failed replays of one flit; an unreachable rank fails the lanes of the replies that it owes; an ensemble's ranks are registered with their pages, and their
registration ends, with their collectives aborted, when the last of them deregisters (R250 to R255, R380). The model's own readings in it are log entries 54, 55 and 56. -/
def Obligations.TimeAndFabric : Prop :=
  (∀ t, nearestSecond t % phcSecond = 0 ∧ t ≤ nearestSecond t + phcSecond / 2 ∧ nearestSecond t ≤ t + phcSecond / 2) ∧
  (∀ (s : State) (time : Nat),
    let follows (i : Instr) (at_ : Nat) : Prop := ∃ t, exec i s = .next t ∧ t.mc.holdover = false ∧ t.warps = s.warps ∧ t.mem = s.mem ∧
      (((at_ : Int) - s.phc).natAbs ≤ phcUs → t.phc = s.phc ∧ t.mc.slew = (at_ : Int) - s.phc) ∧
      (phcUs < ((at_ : Int) - s.phc).natAbs → t.phc = at_ % (2 ^ 48 * phcSecond) ∧ t.mc.slew = 0 ∧ t.mc.pulsed = none)
    (s.mc.ptmOnly = true → follows (.ptmResponse time) time ∧ ∀ ago, exec (.ppsInput ago) s = .next s) ∧
    (s.mc.ptmOnly = false → (∃ t, exec (.ptmResponse time) s = .next t ∧ t.mc.tod = some (time, s.clock) ∧ t.phc = s.phc) ∧
      (∀ x c ago, s.mc.tod = some (x, c) → follows (.ppsInput ago) (nearestSecond (x + (s.clock - c) * phcPerClock - ago * phcPerClock) + ago * phcPerClock)) ∧
      (∀ ago, s.mc.tod = none → follows (.ppsInput ago) (nearestSecond (s.phc - ago * phcPerClock) + ago * phcPerClock))) ∧
    (∃ t, exec .timeSourceLoss s = .next t ∧ t.mc.holdover = true ∧ t.mc.slew = 0 ∧ t.phc = s.phc ∧ t.mc.out = s.mc.out ++ [.holdover]) ∧
    (s.pulseDue = true → ∃ t, exec .ppsOutput s = .next t ∧ t.mc.out = s.mc.out ++ [.pulse s.phcSec] ∧ t.mc.pulsed = some s.phcSec ∧ t.phc = s.phc ∧ t.pulseDue = false)) ∧
  (∀ (s : State) (k : Nat),
    let x := s.links.get k
    (k < 18 → x.down = false → x.retraining = false → ∃ t, exec (.flitCrcFail k) s = .next t ∧ (∀ j, j ≠ k → t.links.get j = s.links.get j) ∧ ({ t with links := s.links } : State) = s ∧
      t.links.get k = if 9 ≤ x.fails + 1 then { x with fails := 0, retraining := true } else { x with fails := x.fails + 1 }) ∧
    (x.retraining = true → ∃ t, exec (.linkRetrainDone k) s = .next t ∧ t.links.get k = { x with fails := 0, retraining := false } ∧ ({ t with links := s.links } : State) = s)) ∧
  (∀ (s : State) (rank : Nat), rank < 64 → (∀ e ∈ s.portOps, e.2.live = true → lanesTo e.2.ranks rank = 0#32) → (∀ e ∈ s.heldStores, e.2.live = true → lanesTo e.2.ranks rank = 0#32) →
    (∀ u, Map.wf (s.warp u).replies = true) →
    ∃ t, exec (.rankUnreachable rank) s = .next t ∧ t.unreach.get rank = true ∧ (∀ k, k ≠ rank → t.unreach.get k = s.unreach.get k) ∧ s.sameBytes t ∧
      (∀ u, (t.warp u).regs = (s.warp u).regs ∧ ∀ id,
        let r := (s.warp u).replies.get id
        let m := lanesTo r.ranks rank
        (m = 0#32 → (t.warp u).replies.get id = r) ∧
        (m ≠ 0#32 → let y := (t.warp u).replies.get id
          y.have_ = true ∧ y.vals = r.vals ∧ ∀ l, l < 32 → y.fails.get l = if m.has l ∧ r.fails.get l = 0 then cREMOTE_UNREACHABLE else r.fails.get l)) ∧
      ∀ k, (s.acks.get k).live = true → (s.acks.get k).rank = rank → t.acks.get k = ({} : Ack)) ∧
  (∀ (s : State) (ms : List EnsMember), ms ≠ [] → (∀ m ∈ ms, m.rank < 64) → (ms.map (·.rank)).Nodup → (ms.filterMap (·.launch)).length ≤ 1 →
    (∀ m ∈ ms, ∀ n, m.launch = some n → (s.launch n).live = true ∧ (s.launch n).ens = none) →
    ∃ t e, exec (.ensembleRegister ms) s = .next t ∧ (t.ens.get e).live = true ∧ s.sameBytes t ∧ (∀ u, t.warp u = s.warp u) ∧
      ∀ m ∈ ms, (t.ens.get e).members.get m.rank = ({ live := true, launch := m.launch, pages := s.memberPages e m } : EnsRank) ∧ ∀ n, m.launch = some n → (t.launch n).ens = some e ∧ (t.launch n).rank = m.rank) ∧
  ∀ (s : State) (e rank : Nat),
    let ms := (s.ens.get e).members
    let m := ms.get rank
    m.live = true → Map.wf ms = true → (∀ x ∈ ms, x.2.live = true) →
    ((∃ x ∈ ms, x.1 ≠ rank ∧ x.2.left = false) → exec (.ensembleDeregister e rank) s = .next { s with ens := s.ens.set e { (s.ens.get e) with members := ms.set rank { m with left := true } } }) ∧
    ((∀ x ∈ ms, x.1 ≠ rank → x.2.left = true) → ∃ t, exec (.ensembleDeregister e rank) s = .next t ∧ (∀ k, (t.ens.get e).members.get k = ({} : EnsRank)) ∧
      (∀ n, (s.launch n).ens = some e → (s.launch n).rank = rank → (t.launch n).ens = none) ∧ (∀ k, (s.colls.get k).live = true → (s.colls.get k).ens = some e → (t.colls.get k).aborted = true) ∧ s.sameBytes t)

/-! ### The debugger (R360 to R377) -/

/-- The debug right goes to one session of a context that may be debugged, and its end resumes what it holds. HALT stops every warp of a gang with a stop record, RESUME lets it go on, STEP lets one warp of a halted gang commit one
step, and completes at once in a wait or out of a replay gang's order; an edit writes the item that it names, and one of a register, a barrier or a unit of gang memory is counted (which items those are is the model's choice, log
entry 84); watchpoints, breakpoints, stop records and lane-cycle counters are written and read; STOPAT refuses a point beyond the present one or outside the two intervals kept, and stops at the present point with event 5 (R360 to
R371, R375, R377). The model's own readings in it are log entries 58, 59, 60 and 84. -/
def Obligations.DebuggerCommands : Prop :=
  (∀ (s : State) (ck session : Nat), (s.ctx ck).live = true → s.mayDebug ck = true → s.attached ck = false →
    ∃ t, exec (.debugRightGrant ck session) s = .next t ∧ (t.ctx ck).dbg.session = some session ∧ (∀ k, k ≠ ck → t.ctx k = s.ctx k) ∧ (∀ u, t.warp u = s.warp u) ∧ s.sameBytes t) ∧
  (∀ (s : State) (ck : Nat), s.attached ck = true → (∀ e ∈ s.gangs, ctxKey e.2.part e.2.ctx = ck → (s.gang e.1).halted = false) →
    ∃ t, exec (.debugRightEnd ck) s = .next t ∧ t.attached ck = false ∧ (∀ k, (((t.ctx ck).dbg.watches.get k).ctl).getLsbD 31 = false) ∧ (∀ k, ((t.ctx ck).dbg.breaks.get k).enabled = false) ∧ s.sameBytes t ∧
      ∀ n, ctxKey (s.launch n).part (s.launch n).ctx = ck → (t.launch n).haltNew = false) ∧
  (∀ (s : State) (g : Nat),
    let x := s.gang g
    let ck := ctxKey x.part x.ctx
    s.attached ck = true → x.place ≠ .absent → x.place ≠ .retired →
    (∃ t, exec (.halt g) s = .next t ∧ (t.gang g).halted = true ∧ s.sameBytes t ∧ (∀ u, (t.warp u).regs = (s.warp u).regs) ∧
      ∀ u ∈ x.warps, (s.warp u).live = true → (s.warp u).step.performed = false → (s.warp u).stopRec.valid = false →
        (t.warp u).step = {} ∧ (t.warp u).stopRec = ({ valid := true, cause := cDEBUG_HALT, tpc := (s.warp u).issuePc.getD 0#32, tmask := (s.warp u).issueSet, sint := x.interval, scount := x.count } : StopRec)) ∧
    (x.halted = true → x.rerun = none → (∀ b, ((x.barrier b).owed = 0 ∧ (x.barrier b).pend = 0) ∧ -2147483648 ≤ (x.barrier b).balance ∧ (x.barrier b).balance ≤ 2147483647 ∧ ((x.barrier b).count = 0 ∨ (x.barrier b).arrived ≠ (x.barrier b).count)) →
      x.warps.Nodup → (∀ u ∈ x.warps, ∀ c p a i m, (s.warp u).wait ≠ .trap c p a i m) →
      ∃ t, exec (.resume g) s = .next t ∧ (t.gang g).halted = false ∧ s.sameBytes t ∧ ∀ u ∈ x.warps, t.warp u = (s.warp u).goOn) ∧
    (∀ u, (s.warp u).gang = g → (s.warp u).live = true → x.halted = true → x.rerun = none → x.place = .resident → ((s.launch x.launch).replay = false ∨ s.replayNext g = some u) →
      ((s.warp u).wait = .ready → (s.warp u).runnable ≠ 0#32 → exec (.step u) s = .next (s.updWarp u (fun w => { w.goOn with stepping := true }))) ∧
      ((s.warp u).wait ≠ .ready ∨ (s.warp u).runnable = 0#32 → exec (.step u) s = .next s)) ∧
    (∀ u, (s.warp u).gang = g → (s.warp u).live = true → x.halted = true → x.rerun = none → (s.launch x.launch).replay = true → s.replayNext g ≠ some u → exec (.step u) s = .next s) ∧
    (∀ target, s.editGang target = g → x.halted = true → s.frozen g = false → s.editOk target = true →
      ∃ t, exec (.debuggerEdit target) s = .next t ∧ (t.ctx ck).dbg.error = false ∧
        (let counted : Prop := match target with
         | .vreg .. | .sreg .. | .special .. | .vpc .. | .barrier .. | .gangMem .. => True
         | .tag .. | .mode .. | .held .. | .rstateU .. | .rstateS .. | .waitSet .. | .wait .. | .batch .. | .group .. => False
         (counted → (t.ctx ck).dbg.edits = min ((s.ctx ck).dbg.edits + 1) 0xFFFFFFFF) ∧ (¬ counted → (t.ctx ck).dbg.edits = (s.ctx ck).dbg.edits)) ∧
        (match target with
         | .vreg u r m v => s.sameBytes t ∧ ∀ q k, k < 32 → (t.warp u).vword q k = if q = r ∧ Mask.has m k = true then Lanes.at v k else (s.warp u).vword q k
         | .sreg u r v => (t.warp u).sword r = v ∧ s.sameBytes t ∧ ∀ q, q ≠ r → (t.warp u).sword q = (s.warp u).sword q
         | .special u n v => (n = 0x10 → (t.warp u).sp.tpc = v) ∧ (n = 0x15 → (t.warp u).sp.trapvec = v) ∧ (n = 0x0B → (t.warp u).sp.fpctl = v &&& 0xFF#32) ∧ (t.warp u).regs = (s.warp u).regs ∧ s.sameBytes t
         | .vpc u l v => (t.warp u).vpcAt l = v ∧ (t.warp u).regs = (s.warp u).regs ∧ s.sameBytes t
         | .tag u vec r l c a => s.sameBytes t ∧ (if vec = true then (t.warp u).regs.vtag.get (32 * r + l) = ({ cause := c, addr := a } : Tag) else (t.warp u).regs.stag.get r = ({ cause := c, addr := a } : Tag)) ∧
             (t.warp u).regs.vec = (s.warp u).regs.vec ∧ (t.warp u).regs.scal = (s.warp u).regs.scal
         | .mode u m => t.warp u = { s.warp u with mode := .ofNum m } ∧ s.sameBytes t
         | .held u m => t.warp u = { s.warp u with held := m } ∧ s.sameBytes t
         | .rstateU u m k h => t.warp u = { s.warp u with rsU := { mode := .ofNum m, kwslot := k, held := h } } ∧ s.sameBytes t
         | .rstateS u xs m k h w sets => s.sameBytes t ∧ (let y := (t.warp u).rsS
             t.warp u = { s.warp u with rsS := y } ∧ [y.tcause, y.tpc, y.taddr, y.tmask, y.tinfo] = xs ∧ y.mode = .ofNum m ∧ y.kwslot = k ∧ y.held = h ∧ y.wait = waitOfEdit ck w ∧
             ∀ j v, sets[j]? = some v → y.wsets.get j = v)
         | .waitSet u k m => t.warp u = { s.warp u with wsets := (s.warp u).wsets.set k m } ∧ s.sameBytes t
         | .wait u w => t.warp u = { s.warp u with wait := waitOfEdit ck w, age := none, rejKind := 0, tryPort := none, tryHeap := none, tryAway := false } ∧ s.sameBytes t
         | .batch u b xs => s.sameBytes t ∧ (t.warp u).regs = (s.warp u).regs ∧
             (let l := if b = 0 then (t.warp u).unsealed else (t.warp u).batches.get (b - 1)
              l.map (fun c => (c.copy, c.done, c.flags, c.cause, c.seq)) = xs)
         | .group u q => t.warp u = { s.warp u with q := q } ∧ s.sameBytes t
         | .barrier _ b c a bal ph br => (let y := (t.gang g).barrier b
             y.count = c % 2 ^ 16 ∧ y.arrived = a % 2 ^ 16 ∧ y.balance = bal ∧ y.phase = ph ∧ y.broken = br) ∧ s.sameBytes t
         | .gangMem _ n b => t.bytes (gangLoc g (16 * n)) 16 = b ∧ ∀ q, q < gangLoc g (16 * n) ∨ gangLoc g (16 * n) + 16 ≤ q → t.byte q = s.byte q)) ∧
    (∀ u, (s.warp u).gang = g → (s.warp u).live = true → (s.warp u).stopRec.valid = true →
      ∃ t, exec (.stopRecordRead u) s = .next t ∧ (t.ctx ck).dbg.stop = (s.warp u).stopRec.words ∧ (t.ctx ck).dbg.error = false ∧ (∀ v, t.warp v = s.warp v) ∧ s.sameBytes t) ∧
    (∀ iv n, (s.launch x.launch).replay = false ∨ pointBefore x.present (iv, n) = true ∨ ¬ (iv = x.present.1 ∨ iv + 1 = x.present.1) ∨ ((iv, n) ≠ x.present ∧ s.snapAt g (iv, n) = none) → ∃ t, exec (.stopat g iv n) s = .next t ∧ (t.ctx ck).dbg.error = true ∧ (∀ v, t.warp v = s.warp v) ∧ t.gangs = s.gangs ∧ s.sameBytes t) ∧
    ((s.launch x.launch).replay = true → x.rerun = none → x.pendStop = none → s.atBoundary g = true → x.halted = true → (∀ u ∈ x.warps, (s.warp u).live = true → (s.warp u).stopRec.valid = true) →
      ∃ t, exec (.stopat g x.interval x.count) s = .next t ∧ (t.gang g).halted = true ∧ (t.gang g).rerun = none ∧ s.sameBytes t ∧ (∀ u, (t.warp u).regs = (s.warp u).regs) ∧
        ∃ e, ((s.ctx ck).dbg.ring.length < 256 → (t.ctx ck).dbg.ring = (s.ctx ck).dbg.ring ++ [e]) ∧ e.evt = 5)) ∧
  (∀ (s : State) (ck k : Nat), s.attached ck = true → k < 8 →
    (∀ addr ctl, watchBad addr ctl = false → ∃ t, exec (.watchpointWrite ck k addr ctl) s = .next t ∧ (t.ctx ck).dbg.watches.get k = ({ addr := addr, ctl := ctl } : Watch) ∧ (t.ctx ck).dbg.error = false ∧ s.sameBytes t) ∧
    (∀ addr ctl, watchBad addr ctl = true → ∃ t, exec (.watchpointWrite ck k addr ctl) s = .next t ∧ ((t.ctx ck).dbg.watches.get k).ctl.getLsbD 31 = false ∧ (t.ctx ck).dbg.error = true ∧ s.sameBytes t) ∧
    (∀ addr slot on, slot < 16 → ∃ t, exec (.breakpointWrite ck k addr slot on) s = .next t ∧ (t.ctx ck).dbg.breaks.get k = ({ enabled := on, addr := addr, slot := slot } : Break) ∧ s.sameBytes t)) ∧
  (∀ (s : State) (ck : Nat), (s.ctx ck).live = true →
    (∃ t, exec (.laneCycleRead ck) s = .next t ∧ (t.ctx ck).dbg.counters.length = 80 ∧ ∀ k, k < 16 → ((t.ctx ck).dbg.counters.drop (5 * k)).take 5 = ((s.ctx ck).dbg.bins.get k).counts) ∧
    (∃ t, exec (.laneCycleClear ck) s = .next t ∧ ∀ k, ((t.ctx ck).dbg.bins.get k).counts = [0, 0, 0, 0, 0] ∧ ((t.ctx ck).dbg.bins.get k).base = ((s.ctx ck).dbg.bins.get k).base)) ∧
  ∀ (s : State) (g : Nat), s.checkpointDue g = true → s.midStep g = false →
    ∃ t, exec (.replayCheckpoint g) s = .next t ∧ (t.gang g).interval = (s.gang g).interval + 1 ∧ (t.gang g).count = 0 ∧ (t.gang g).logBytes = 0 ∧ s.sameBytes t ∧ ∀ u, t.warp u = s.warp u

/-! ### The module (R378 to R385, R413 to R417) -/

/-- Power: bring-up reports the step at which it stopped, or completes with the context creation open; each window throttles a partition once to its share; an input fault throttles all to the least until the input is back, and a
second of it ends the power, all work and storage with a record to each context. The commands CAP, TIME, FIRMWARE, COUNTERS, DUMP and ATTEST are refused from a port that is not admitted, and else take their settings or are
refused; a dump stops the partition's gangs and ends complete or truncated with their saved images, the held launches and the pages that it names (R378, R380, R382 to R385). The model's own readings in it are log entries 61, 62
and 96. -/
def Obligations.ModuleCommands : Prop :=
  ∀ s : State,
    let said (i : Instr) (r : McReply) (P : State → Prop) : Prop := ∃ t, exec i s = .next t ∧ t.mc.out = s.mc.out ++ [r] ∧ P t
    let kept (t : State) : Prop := t.warps = s.warps ∧ t.gangs = s.gangs ∧ t.mem = s.mem ∧ t.ctxs = s.ctxs
    (∀ image : BootInput, said (.powerGood image) (.bringUp (if s.mc.bootBank = 0 then 2 else if image.wipeError = true then 3 else if image.hbmError = true then 4 else 0)) (fun t =>
      t.powered = true ∧ t.warps = [] ∧ t.gangs = [] ∧ t.ctxs = [] ∧ t.mc.badSince = none ∧ t.mc.bank = s.mc.bootBank ∧ (t.mc.created = true ↔ s.mc.bootBank ≠ 0 ∧ image.wipeError = false ∧ image.hbmError = false) ∧
      (s.mc.bootBank = 0 → t.mem = s.mem) ∧ (s.mc.bootBank ≠ 0 → image.wipeError = true ∨ image.hbmError = true → ∀ a, a < 2 ^ 64 → t.byte a = 0#8) ∧
      (s.mc.bootBank ≠ 0 → image.wipeError = false → t.mc.pcieDown = !image.pcieUp))) ∧
    (∀ p w, (s.part p).live = true → s.mc.badSince = none → s.clock / 1600 < (s.part p).window → exec (.powerWindow p w) s = .next s) ∧
    (∀ p w, (s.part p).live = true → s.mc.badSince = none → (s.part p).window ≤ s.clock / 1600 → ∃ t, exec (.powerWindow p w) s = .next t ∧ kept t ∧ t.mc = s.mc ∧ (t.part p).window = s.clock / 1600 + 1 ∧
      (let n := (t.part p).withheld
       n ≤ 15 ∧ (n < 15 → w * (16 - n) ≤ s.mc.shares.get p * (16 - (s.part p).withheld)) ∧ ∀ k, k < n → s.mc.shares.get p * (16 - (s.part p).withheld) < w * (16 - k))) ∧
    (s.mc.badSince = none → ∃ t, exec .inputFault s = .next t ∧ t.mc.badSince = some s.clock ∧ kept t ∧ ∀ p, (s.part p).live = true → (t.part p).withheld = 15) ∧
    (s.mc.badSince ≠ none → ∃ t, exec .inputBackInRange s = .next t ∧ t.mc.badSince = none ∧ kept t ∧ ∀ p, (s.part p).live = true → (t.part p).withheld = 0) ∧
    (s.powerOffDue = true → ∃ t, exec .powerOff s = .next t ∧ t.powered = false ∧ t.warps = [] ∧ t.gangs = [] ∧ (∀ a, a < 2 ^ 64 → t.byte a = 0#8) ∧
      ∀ ck, (s.ctx ck).live = true → (t.ctx ck).live = false ∧ ((s.ctx ck).ring.length < 255 → ∃ r, r ∈ (t.ctx ck).ring ∧ r.cause = cMACHINE_CHECK)) ∧
    (∀ both client, s.mc.via = .net both client → (s.mc.admits = true ↔ both = true ∧ Config.clientEnrolled (lifeCode s.mc.life) client = true)) ∧ (∀ platform, s.mc.via = .i3c platform → s.mc.admits = platform) ∧
    (s.mc.admits = false → ∀ watts shares ptm p bank image opts,
      ∀ i ∈ [Instr.cap watts shares, .time ptm, .counters p, .firmware bank image, .dump p opts, .attest], exec i s = .next (s.say .refused)) ∧
    (s.mc.admits = true →
    (∀ watts shares, 800 ≤ watts ∧ watts ≤ 2600 ∧ shares.length = s.mc.partMap.length ∧ shares.foldl (· + ·) 0 ≤ watts → said (.cap watts shares) .accepted (fun t => t.mc.capW = watts ∧ (∀ p x, shares[p]? = some x → t.mc.shares.get p = x) ∧ kept t)) ∧
    (∀ watts shares, ¬ (800 ≤ watts ∧ watts ≤ 2600 ∧ shares.length = s.mc.partMap.length ∧ shares.foldl (· + ·) 0 ≤ watts) → exec (.cap watts shares) s = .next (s.say .refused)) ∧
    (∀ ptm, said (.time ptm) .accepted (fun t => t.mc.ptmOnly = ptm ∧ t.phc = s.phc ∧ kept t)) ∧
    (∀ p, said (.counters p) (.counters p (s.part p).corrected (s.part p).log) kept) ∧
    (∀ image, said (.firmware false image) .accepted (fun t => t.mc.bankA = image ∧ t.mc.bankB = s.mc.bankB ∧ t.mc.bank = s.mc.bank ∧ kept t) ∧
      said (.firmware true image) .accepted (fun t => t.mc.bankB = image ∧ t.mc.bankA = s.mc.bankA ∧ t.mc.bank = s.mc.bank ∧ kept t)) ∧
    (∀ p opts, (s.part p).live = true → (s.part p).dump = none → said (.dump p opts) .accepted (fun t => (∃ d, (t.part p).dump = some d ∧ d.reset = opts.reset ∧ d.pages = opts.pages ∧ d.start = s.phc ∧ d.clock = s.clock) ∧
      (∀ g, (s.gang g).place = .resident → (s.gang g).part = p → (t.gang g).place = .stopping) ∧ s.sameBytes t)) ∧
    (∀ p opts, (s.part p).live = false ∨ (s.part p).dump ≠ none → exec (.dump p opts) s = .next (s.say .refused))) ∧
    (∀ p d, (s.part p).dump = some d → d.reset = false → d.trigger = none →
      (let rings := (s.ctxs.filter (fun e => e.1 / 64 == p && e.2.live)).map (fun e => e.2.ring)
       let pages := d.pages.filterMap (s.dumpPage p)
      (s.dumpSaved p = true → ∃ queue, (∀ n ∈ queue, s.launchHeld n = true) ∧ said (.dumpStreamEnd p) (.dump p true d.start s.phc (d.gangs.map s.dumpGang) rings (s.part p).log queue pages) (fun t => (t.part p).dump = none ∧ kept t)) ∧
      (s.dumpOver p = true → ∃ queue, (∀ n ∈ queue, s.launchHeld n = true) ∧ said (.dumpTimeout p) (.dump p false d.start s.phc (d.gangs.map s.dumpGang) rings (s.part p).log queue pages) (fun t => (t.part p).dump = none ∧ kept t))) ∧
      ∀ g, (s.dumpGang g).warps = (s.gang g).warps.map s.warp ∧ (s.dumpGang g).cause = (s.gang g).saveCause ∧ (∀ b, b < 32 → (s.dumpGang g).barriers[b]? = some ((s.gang g).barriers.get b)) ∧
        ∀ c, c ∈ (s.dumpGang g).mem ↔ c ∈ s.mem ∧ gangLoc g 0 ≤ c.1 ∧ c.1 < gangLoc g 0 + 2 ^ 22)

/-- A life-cycle transition that R415 lists and whose two signatures verify wipes all storage and changes the state; any other is refused. A code key is enrolled under the operator root alone. The SPDM responder answers its
version, capabilities and algorithms, and with agreed algorithms and an identity signs its certificate, the challenge and its measurements; else ERROR (R379, R413, R415, R417). The model's own readings in it are log entries 63 and
64. -/
def Obligations.LifeCycleAndAttestation : Prop :=
  ∀ s : State,
    let spdm (i : Instr) (ok : Bool) (code : Nat) (body : List Byte) : Prop := exec i s = .next (s.say (.spdm (if ok then code else 0x7F) (if ok then body else [])))
    let cert := Config.certificate s.mc.serial
    let digest := natBytes 48 (Config.sha384 cert).toNat
    (∀ target (r : SignedRequest), ∃ t, exec (.lifecycleTransition target r) s = .next t ∧
      (match s.mc.transit target r with
       | none => t = s.say .refused
       | some m => if s.mc.signed r = true then t.mc.life = target ∧ t.mc.identity = m.identity ∧ t.mc.operatorRoot = m.operatorRoot ∧ t.mc.codeKeys = m.codeKeys ∧ t.mc.created = false ∧ t.mc.out = s.mc.out ++ [.accepted] ∧
           (target = .retired → t.mc.bank = 0) ∧ t.warps = [] ∧ t.ctxs = [] ∧ t.parts = [] ∧ ∀ a, a < 2 ^ 64 → t.byte a = 0#8
         else t = s.say .refused)) ∧
    (∀ r, (s.mc.transit .factory r).isSome = true ↔ s.mc.life = .blank ∧ r.byVendor = true) ∧
    (∀ r, (s.mc.transit .field r).isSome = true ↔ (s.mc.life = .factory ∧ r.byVendor = true) ∨ (s.mc.life = .fieldDebug ∧ r.byVendor = false ∧ r.serial = s.mc.serial)) ∧
    (∀ r, (s.mc.transit .fieldDebug r).isSome = true ↔ s.mc.life = .field ∧ r.byVendor = false ∧ r.serial = s.mc.serial) ∧
    (∀ r, s.mc.transit .blank r = none) ∧
    (∀ p i key (r : SignedRequest), p < 8 → i < 16 → ∃ t, exec (.codeKeyEnrol p i key r) s = .next t ∧
      (if r.byVendor = false ∧ s.mc.signed r = true then t.mc.codeKeys.get (16 * p + i) = some key ∧ t.mc.out = s.mc.out ++ [.accepted] else t = s.say .refused)) ∧
    (s.mc.admits = true → ∃ t, exec .attest s = .next t ∧ t.mc.spdmAlg = false ∧ t.mc.out = s.mc.out ++ [.accepted]) ∧
    spdm .getVersion true 0x04 [0x00#8, 0x13#8] ∧ spdm .getCapabilities true 0x61 (natBytes 4 0x16) ∧
    (∀ ok, ∃ t, exec (.negotiateAlgorithms ok) s = .next t ∧ t.mc.spdmAlg = ok ∧ t.mc.out = s.mc.out ++ [.spdm (if ok then 0x63 else 0x7F) (if ok then natBytes 4 0x80 ++ natBytes 4 0x02 else [])]) ∧
    spdm .getDigests (s.mc.spdmAlg && s.mc.identity) 0x01 digest ∧ spdm .getCertificate (s.mc.spdmAlg && s.mc.identity) 0x02 cert ∧
    (∀ nonce : BitVec 256, let body := digest ++ natBytes 32 nonce.toNat
      spdm (.challenge nonce) (s.mc.spdmAlg && s.mc.identity) 0x03 (body ++ Config.identitySign s.mc.serial body)) ∧
    ∀ i, (∀ d, s.measurement i = some d → (let body := BitVec.ofNat 8 i :: natBytes 48 d.toNat
        spdm (.getMeasurements i) (s.mc.spdmAlg && s.mc.identity) 0x60 (body ++ Config.identitySign s.mc.serial body))) ∧
      (s.measurement i = none → exec (.getMeasurements i) s = .next (s.say (.spdm 0x7F [])))
end

