-- ==== Sys2Proof/Laws/Map.lean ====
section
/-! SUPPORT. What the operations on sparse maps do: reading after writing, and the canonical form. -/
set_option autoImplicit false

namespace Sys2Proof.Machine

variable {α : Type}

@[simp] theorem Map.get_nil [Inhabited α] (k : Nat) : Map.get ([] : Map α) k = default := rfl

theorem Map.get_cons [Inhabited α] (j : Nat) (a : α) (m : Map α) (k : Nat) :
    Map.get ((j, a) :: m) k = if j = k then a else Map.get m k := rfl

theorem Map.get_erase_self [Inhabited α] (m : Map α) (k : Nat) : Map.get (Map.erase m k) k = default := by
  induction m with
  | nil => rfl
  | cons p m ih =>
    obtain ⟨j, a⟩ := p
    by_cases h : j = k
    · simpa [Map.erase, h] using ih
    · simp only [Map.erase] at ih ⊢
      simp [h, Map.get_cons, ih]

theorem Map.get_erase_ne [Inhabited α] (m : Map α) {k i : Nat} (h : i ≠ k) : Map.get (Map.erase m k) i = Map.get m i := by
  induction m with
  | nil => rfl
  | cons p m ih =>
    obtain ⟨j, a⟩ := p
    simp only [Map.erase] at ih ⊢
    by_cases hj : j = k
    · have : ¬ k = i := fun e => h e.symm
      simp [hj, Map.get_cons, ih, this]
    · simp [hj, Map.get_cons, ih]

theorem Map.get_insert_self [Inhabited α] (m : Map α) (k : Nat) (a : α) (h : ∀ p ∈ m, p.1 ≠ k) : Map.get (Map.insert m k a) k = a := by
  induction m with
  | nil => simp [Map.insert, Map.get_cons]
  | cons p m ih =>
    obtain ⟨j, b⟩ := p
    have hj : j ≠ k := h (j, b) (by simp)
    simp only [Map.insert]
    split
    · simp [Map.get_cons]
    · simp [Map.get_cons, hj, ih (fun q hq => h q (by simp [hq]))]

theorem Map.get_insert_ne [Inhabited α] (m : Map α) {k i : Nat} (a : α) (h : i ≠ k) : Map.get (Map.insert m k a) i = Map.get m i := by
  induction m with
  | nil => have : ¬ k = i := fun e => h e.symm
           simp [Map.insert, Map.get_cons, this]
  | cons p m ih =>
    obtain ⟨j, b⟩ := p
    have hk : ¬ k = i := fun e => h e.symm
    simp only [Map.insert]
    split
    · simp [Map.get_cons, hk]
    · simp [Map.get_cons, ih]

theorem Map.mem_erase (m : Map α) (k : Nat) (p : Nat × α) : p ∈ Map.erase m k ↔ p ∈ m ∧ p.1 ≠ k := by
  simp [Map.erase]

/-- Reading back the entry just set. -/
@[simp] theorem Map.get_set_self [Inhabited α] [DecidableEq α] (m : Map α) (k : Nat) (a : α) : Map.get (Map.set m k a) k = a := by
  unfold Map.set
  split
  · next h => rw [Map.get_erase_self, h]
  · exact Map.get_insert_self _ _ _ (fun p hp => ((Map.mem_erase m k p).1 hp).2)

/-- Setting an entry leaves every other alone. -/
theorem Map.get_set_ne [Inhabited α] [DecidableEq α] (m : Map α) {k i : Nat} (a : α) (h : i ≠ k) : Map.get (Map.set m k a) i = Map.get m i := by
  unfold Map.set
  split
  · exact Map.get_erase_ne m h
  · rw [Map.get_insert_ne _ a h, Map.get_erase_ne m h]

theorem Map.get_set [Inhabited α] [DecidableEq α] (m : Map α) (k i : Nat) (a : α) : Map.get (Map.set m k a) i = if i = k then a else Map.get m i := by
  by_cases h : i = k
  · simp [h]
  · simp [h, Map.get_set_ne m a h]

/-! ### The canonical form -/

/-- Every key lies above a bound. -/
def Map.above (lo : Option Nat) (m : Map α) : Prop := ∀ p ∈ m, ∀ b, lo = some b → b < p.1

theorem Map.rising_cons (lo : Option Nat) (k : Nat) (a : α) (m : Map α) :
    Map.rising lo ((k, a) :: m) = true ↔ (∀ b, lo = some b → b < k) ∧ Map.rising (some k) m = true := by
  cases lo <;> simp [Map.rising]

theorem Map.rising_above (m : Map α) : ∀ lo, Map.rising lo m = true → Map.above lo m := by
  induction m with
  | nil => intro lo _ p hp; cases hp
  | cons q m ih =>
    obtain ⟨k, a⟩ := q
    intro lo h p hp b hb
    rw [Map.rising_cons] at h
    rcases List.mem_cons.1 hp with rfl | hm
    · exact h.1 b hb
    · exact Nat.lt_trans (h.1 b hb) (ih (some k) h.2 p hm k rfl)

theorem Map.rising_weaken (m : Map α) (lo lo' : Option Nat) (h : Map.rising lo m = true)
    (hl : ∀ p ∈ m, ∀ b, lo' = some b → b < p.1) : Map.rising lo' m = true := by
  cases m with
  | nil => cases lo' <;> rfl
  | cons q m =>
    obtain ⟨k, a⟩ := q
    rw [Map.rising_cons] at h ⊢
    exact ⟨fun b hb => hl (k, a) (by simp) b hb, h.2⟩

theorem Map.rising_filter (p : Nat × α → Bool) (m : Map α) :
    ∀ lo, Map.rising lo m = true → Map.rising lo (m.filter p) = true := by
  induction m with
  | nil => intro lo _; cases lo <;> rfl
  | cons q m ih =>
    obtain ⟨k, a⟩ := q
    intro lo h
    rw [Map.rising_cons] at h
    by_cases hp : p (k, a) = true
    · rw [List.filter_cons_of_pos hp, Map.rising_cons]
      exact ⟨h.1, ih _ h.2⟩
    · rw [List.filter_cons_of_neg hp]
      refine Map.rising_weaken _ (some k) lo (ih _ h.2) (fun r hr b hb => ?_)
      exact Nat.lt_trans (h.1 b hb) (Map.rising_above m (some k) h.2 r ((List.mem_filter.1 hr).1) k rfl)

theorem Map.rising_insert (m : Map α) (k : Nat) (a : α) (hk : ∀ p ∈ m, p.1 ≠ k) :
    ∀ lo, (∀ b, lo = some b → b < k) → Map.rising lo m = true → Map.rising lo (Map.insert m k a) = true := by
  induction m with
  | nil => intro lo hb _; rw [Map.insert, Map.rising_cons]; exact ⟨hb, rfl⟩
  | cons q m ih =>
    obtain ⟨j, b⟩ := q
    intro lo hlo h
    have hj : j ≠ k := hk (j, b) (by simp)
    rw [Map.rising_cons] at h
    simp only [Map.insert]
    split
    · next hlt => rw [Map.rising_cons, Map.rising_cons]; exact ⟨hlo, fun c hc => by cases hc; exact hlt, h.2⟩
    · next hge =>
      rw [Map.rising_cons]
      refine ⟨h.1, ih (fun p hp => hk p (by simp [hp])) (some j) (fun c hc => ?_) h.2⟩
      cases hc; omega

theorem Map.mem_insert (m : Map α) (k : Nat) (a : α) (p : Nat × α) : p ∈ Map.insert m k a → p = (k, a) ∨ p ∈ m := by
  induction m with
  | nil => intro h; simpa [Map.insert] using h
  | cons q m ih =>
    obtain ⟨j, b⟩ := q
    intro h
    simp only [Map.insert] at h
    split at h
    · simpa using h
    · rcases List.mem_cons.1 h with rfl | h'
      · exact .inr (by simp)
      · rcases ih h' with e | e
        · exact .inl e
        · exact .inr (by simp [e])

theorem Map.wf_iff [Inhabited α] [DecidableEq α] (m : Map α) : Map.wf m = true ↔ Map.rising none m = true ∧ ∀ p ∈ m, p.2 ≠ default := by
  simp [Map.wf, List.all_eq_true]

/-- The empty map is canonical. -/
theorem Map.wf_nil [Inhabited α] [DecidableEq α] : Map.wf ([] : Map α) = true := rfl

/-- Keeping a part of a canonical map keeps the form. -/
theorem Map.wf_filter [Inhabited α] [DecidableEq α] (p : Nat × α → Bool) (m : Map α) (h : Map.wf m = true) : Map.wf (m.filter p) = true := by
  rw [Map.wf_iff] at h ⊢
  exact ⟨Map.rising_filter p m none h.1, fun q hq => h.2 q (List.mem_filter.1 hq).1⟩

theorem Map.wf_keep [Inhabited α] [DecidableEq α] (p : Nat → α → Bool) (m : Map α) (h : Map.wf m = true) : Map.wf (m.keep p) = true :=
  Map.wf_filter _ m h

/-- A write keeps the canonical form. -/
theorem Map.wf_set [Inhabited α] [DecidableEq α] (m : Map α) (k : Nat) (a : α) (h : Map.wf m = true) : Map.wf (Map.set m k a) = true := by
  have he := Map.wf_filter (fun p => p.1 != k) m h
  unfold Map.set
  split
  · exact he
  · next ha =>
    rw [Map.wf_iff] at he ⊢
    have hk : ∀ p ∈ Map.erase m k, p.1 ≠ k := fun p hp => ((Map.mem_erase m k p).1 hp).2
    refine ⟨Map.rising_insert _ k a hk none (fun b hb => by cases hb) he.1, fun p hp => ?_⟩
    rcases Map.mem_insert _ _ _ _ hp with rfl | hm
    · exact ha
    · exact he.2 p hm

theorem Map.wf_upd [Inhabited α] [DecidableEq α] (m : Map α) (k : Nat) (f : α → α) (h : Map.wf m = true) : Map.wf (m.upd k f) = true :=
  Map.wf_set m k _ h

/-- Canonical maps with the same readings are equal as lists. -/
theorem Map.get_of_above [Inhabited α] (m : Map α) (b k : Nat) (h : Map.rising (some b) m = true) (hk : k ≤ b) : Map.get m k = default := by
  induction m with
  | nil => rfl
  | cons q m ih =>
    obtain ⟨j, a⟩ := q
    have hj := (Map.rising_cons (some b) j a m).1 h
    have : b < j := hj.1 b rfl
    rw [Map.get_cons, if_neg (by omega)]
    exact ih (Map.rising_weaken m (some j) (some b) hj.2 (fun p hp c hc => by
      cases hc; exact Nat.lt_trans this (Map.rising_above m _ hj.2 p hp j rfl)))

end Sys2Proof.Machine
end

