-- ==== Sys2Proof/Laws/State.lean ====
section
/-! SUPPORT. What each update of a part of the state changes: one lemma for each field it leaves alone, and what it leaves in its
own table. -/
set_option autoImplicit false

namespace Sys2Proof.Machine

variable (s : State)

@[simp] theorem State.setWarp_powered (u : Nat) (w : Warp) : (s.setWarp u w).powered = s.powered := rfl
@[simp] theorem State.setWarp_gangs (u : Nat) (w : Warp) : (s.setWarp u w).gangs = s.gangs := rfl
@[simp] theorem State.setWarp_launches (u : Nat) (w : Warp) : (s.setWarp u w).launches = s.launches := rfl
@[simp] theorem State.setWarp_ctxs (u : Nat) (w : Warp) : (s.setWarp u w).ctxs = s.ctxs := rfl
@[simp] theorem State.setWarp_parts (u : Nat) (w : Warp) : (s.setWarp u w).parts = s.parts := rfl
@[simp] theorem State.setWarp_quads (u : Nat) (w : Warp) : (s.setWarp u w).quads = s.quads := rfl
@[simp] theorem State.setWarp_clusters (u : Nat) (w : Warp) : (s.setWarp u w).clusters = s.clusters := rfl
@[simp] theorem State.setWarp_mem (u : Nat) (w : Warp) : (s.setWarp u w).mem = s.mem := rfl
@[simp] theorem State.setWarp_ports (u : Nat) (w : Warp) : (s.setWarp u w).ports = s.ports := rfl
@[simp] theorem State.setWarp_pats (u : Nat) (w : Warp) : (s.setWarp u w).pats = s.pats := rfl
@[simp] theorem State.setWarp_outbox (u : Nat) (w : Warp) : (s.setWarp u w).outbox = s.outbox := rfl
@[simp] theorem State.setWarp_unitQ (u : Nat) (w : Warp) : (s.setWarp u w).unitQ = s.unitQ := rfl
@[simp] theorem State.setWarp_heaps (u : Nat) (w : Warp) : (s.setWarp u w).heaps = s.heaps := rfl
@[simp] theorem State.setWarp_heapQ (u : Nat) (w : Warp) : (s.setWarp u w).heapQ = s.heapQ := rfl
@[simp] theorem State.setWarp_tlb (u : Nat) (w : Warp) : (s.setWarp u w).tlb = s.tlb := rfl
@[simp] theorem State.setWarp_walks (u : Nat) (w : Warp) : (s.setWarp u w).walks = s.walks := rfl
@[simp] theorem State.setWarp_jobs (u : Nat) (w : Warp) : (s.setWarp u w).jobs = s.jobs := rfl
@[simp] theorem State.setWarp_placed (u : Nat) (w : Warp) : (s.setWarp u w).placed = s.placed := rfl
@[simp] theorem State.setWarp_fns (u : Nat) (w : Warp) : (s.setWarp u w).fns = s.fns := rfl
@[simp] theorem State.setWarp_links (u : Nat) (w : Warp) : (s.setWarp u w).links = s.links := rfl
@[simp] theorem State.setWarp_mc (u : Nat) (w : Warp) : (s.setWarp u w).mc = s.mc := rfl
@[simp] theorem State.setWarp_lines (u : Nat) (w : Warp) : (s.setWarp u w).lines = s.lines := rfl
@[simp] theorem State.setWarp_poisonLine (u : Nat) (w : Warp) : (s.setWarp u w).poisonLine = s.poisonLine := rfl
@[simp] theorem State.setWarp_poisonUnit (u : Nat) (w : Warp) : (s.setWarp u w).poisonUnit = s.poisonUnit := rfl
@[simp] theorem State.setWarp_owners (u : Nat) (w : Warp) : (s.setWarp u w).owners = s.owners := rfl
@[simp] theorem State.setWarp_portOps (u : Nat) (w : Warp) : (s.setWarp u w).portOps = s.portOps := rfl
@[simp] theorem State.setWarp_heldStores (u : Nat) (w : Warp) : (s.setWarp u w).heldStores = s.heldStores := rfl
@[simp] theorem State.setWarp_holds (u : Nat) (w : Warp) : (s.setWarp u w).holds = s.holds := rfl
@[simp] theorem State.setWarp_debts (u : Nat) (w : Warp) : (s.setWarp u w).debts = s.debts := rfl
@[simp] theorem State.setWarp_acks (u : Nat) (w : Warp) : (s.setWarp u w).acks = s.acks := rfl
@[simp] theorem State.setWarp_hostStores (u : Nat) (w : Warp) : (s.setWarp u w).hostStores = s.hostStores := rfl
@[simp] theorem State.setWarp_copies (u : Nat) (w : Warp) : (s.setWarp u w).copies = s.copies := rfl
@[simp] theorem State.setWarp_colls (u : Nat) (w : Warp) : (s.setWarp u w).colls = s.colls := rfl
@[simp] theorem State.setWarp_sends (u : Nat) (w : Warp) : (s.setWarp u w).sends = s.sends := rfl
@[simp] theorem State.setWarp_ens (u : Nat) (w : Warp) : (s.setWarp u w).ens = s.ens := rfl
@[simp] theorem State.setWarp_unreach (u : Nat) (w : Warp) : (s.setWarp u w).unreach = s.unreach := rfl
@[simp] theorem State.setWarp_hostAtomics (u : Nat) (w : Warp) : (s.setWarp u w).hostAtomics = s.hostAtomics := rfl
@[simp] theorem State.setWarp_remoteFlags (u : Nat) (w : Warp) : (s.setWarp u w).remoteFlags = s.remoteFlags := rfl
@[simp] theorem State.setWarp_history (u : Nat) (w : Warp) : (s.setWarp u w).history = s.history := rfl
@[simp] theorem State.setWarp_logs (u : Nat) (w : Warp) : (s.setWarp u w).logs = s.logs := rfl
@[simp] theorem State.setWarp_clock (u : Nat) (w : Warp) : (s.setWarp u w).clock = s.clock := rfl
@[simp] theorem State.setWarp_phc (u : Nat) (w : Warp) : (s.setWarp u w).phc = s.phc := rfl
@[simp] theorem State.setWarp_nextUid (u : Nat) (w : Warp) : (s.setWarp u w).nextUid = s.nextUid := rfl
@[simp] theorem State.setWarp_actor (u : Nat) (w : Warp) : (s.setWarp u w).actor = s.actor := rfl
@[simp] theorem State.setWarp_inputs (u : Nat) (w : Warp) : (s.setWarp u w).inputs = s.inputs := rfl
@[simp] theorem State.setWarp_nextTurn (u : Nat) (w : Warp) : (s.setWarp u w).nextTurn = s.nextTurn := rfl
@[simp] theorem State.setWarp_sched (u : Nat) (w : Warp) : (s.setWarp u w).sched = s.sched := rfl
@[simp] theorem State.setWarp_placings (u : Nat) (w : Warp) : (s.setWarp u w).placings = s.placings := rfl
@[simp] theorem State.setWarp_engine (u : Nat) (w : Warp) : (s.setWarp u w).engine = s.engine := rfl
@[simp] theorem State.setWarp_drawn (u : Nat) (w : Warp) : (s.setWarp u w).drawn = s.drawn := rfl
@[simp] theorem State.setWarp_caps (u : Nat) (w : Warp) : (s.setWarp u w).caps = s.caps := rfl
@[simp] theorem State.setWarp_turns (u : Nat) (w : Warp) : (s.setWarp u w).turns = s.turns := rfl

@[simp] theorem State.setGang_powered (g : Nat) (x : Gang) : (s.setGang g x).powered = s.powered := rfl
@[simp] theorem State.setGang_warps (g : Nat) (x : Gang) : (s.setGang g x).warps = s.warps := rfl
@[simp] theorem State.setGang_launches (g : Nat) (x : Gang) : (s.setGang g x).launches = s.launches := rfl
@[simp] theorem State.setGang_ctxs (g : Nat) (x : Gang) : (s.setGang g x).ctxs = s.ctxs := rfl
@[simp] theorem State.setGang_parts (g : Nat) (x : Gang) : (s.setGang g x).parts = s.parts := rfl
@[simp] theorem State.setGang_quads (g : Nat) (x : Gang) : (s.setGang g x).quads = s.quads := rfl
@[simp] theorem State.setGang_clusters (g : Nat) (x : Gang) : (s.setGang g x).clusters = s.clusters := rfl
@[simp] theorem State.setGang_mem (g : Nat) (x : Gang) : (s.setGang g x).mem = s.mem := rfl
@[simp] theorem State.setGang_ports (g : Nat) (x : Gang) : (s.setGang g x).ports = s.ports := rfl
@[simp] theorem State.setGang_pats (g : Nat) (x : Gang) : (s.setGang g x).pats = s.pats := rfl
@[simp] theorem State.setGang_outbox (g : Nat) (x : Gang) : (s.setGang g x).outbox = s.outbox := rfl
@[simp] theorem State.setGang_unitQ (g : Nat) (x : Gang) : (s.setGang g x).unitQ = s.unitQ := rfl
@[simp] theorem State.setGang_heaps (g : Nat) (x : Gang) : (s.setGang g x).heaps = s.heaps := rfl
@[simp] theorem State.setGang_heapQ (g : Nat) (x : Gang) : (s.setGang g x).heapQ = s.heapQ := rfl
@[simp] theorem State.setGang_tlb (g : Nat) (x : Gang) : (s.setGang g x).tlb = s.tlb := rfl
@[simp] theorem State.setGang_walks (g : Nat) (x : Gang) : (s.setGang g x).walks = s.walks := rfl
@[simp] theorem State.setGang_jobs (g : Nat) (x : Gang) : (s.setGang g x).jobs = s.jobs := rfl
@[simp] theorem State.setGang_placed (g : Nat) (x : Gang) : (s.setGang g x).placed = s.placed := rfl
@[simp] theorem State.setGang_fns (g : Nat) (x : Gang) : (s.setGang g x).fns = s.fns := rfl
@[simp] theorem State.setGang_links (g : Nat) (x : Gang) : (s.setGang g x).links = s.links := rfl
@[simp] theorem State.setGang_mc (g : Nat) (x : Gang) : (s.setGang g x).mc = s.mc := rfl
@[simp] theorem State.setGang_lines (g : Nat) (x : Gang) : (s.setGang g x).lines = s.lines := rfl
@[simp] theorem State.setGang_poisonLine (g : Nat) (x : Gang) : (s.setGang g x).poisonLine = s.poisonLine := rfl
@[simp] theorem State.setGang_poisonUnit (g : Nat) (x : Gang) : (s.setGang g x).poisonUnit = s.poisonUnit := rfl
@[simp] theorem State.setGang_owners (g : Nat) (x : Gang) : (s.setGang g x).owners = s.owners := rfl
@[simp] theorem State.setGang_portOps (g : Nat) (x : Gang) : (s.setGang g x).portOps = s.portOps := rfl
@[simp] theorem State.setGang_heldStores (g : Nat) (x : Gang) : (s.setGang g x).heldStores = s.heldStores := rfl
@[simp] theorem State.setGang_holds (g : Nat) (x : Gang) : (s.setGang g x).holds = s.holds := rfl
@[simp] theorem State.setGang_debts (g : Nat) (x : Gang) : (s.setGang g x).debts = s.debts := rfl
@[simp] theorem State.setGang_acks (g : Nat) (x : Gang) : (s.setGang g x).acks = s.acks := rfl
@[simp] theorem State.setGang_hostStores (g : Nat) (x : Gang) : (s.setGang g x).hostStores = s.hostStores := rfl
@[simp] theorem State.setGang_copies (g : Nat) (x : Gang) : (s.setGang g x).copies = s.copies := rfl
@[simp] theorem State.setGang_colls (g : Nat) (x : Gang) : (s.setGang g x).colls = s.colls := rfl
@[simp] theorem State.setGang_sends (g : Nat) (x : Gang) : (s.setGang g x).sends = s.sends := rfl
@[simp] theorem State.setGang_ens (g : Nat) (x : Gang) : (s.setGang g x).ens = s.ens := rfl
@[simp] theorem State.setGang_unreach (g : Nat) (x : Gang) : (s.setGang g x).unreach = s.unreach := rfl
@[simp] theorem State.setGang_hostAtomics (g : Nat) (x : Gang) : (s.setGang g x).hostAtomics = s.hostAtomics := rfl
@[simp] theorem State.setGang_remoteFlags (g : Nat) (x : Gang) : (s.setGang g x).remoteFlags = s.remoteFlags := rfl
@[simp] theorem State.setGang_history (g : Nat) (x : Gang) : (s.setGang g x).history = s.history := rfl
@[simp] theorem State.setGang_logs (g : Nat) (x : Gang) : (s.setGang g x).logs = s.logs := rfl
@[simp] theorem State.setGang_clock (g : Nat) (x : Gang) : (s.setGang g x).clock = s.clock := rfl
@[simp] theorem State.setGang_phc (g : Nat) (x : Gang) : (s.setGang g x).phc = s.phc := rfl
@[simp] theorem State.setGang_nextUid (g : Nat) (x : Gang) : (s.setGang g x).nextUid = s.nextUid := rfl
@[simp] theorem State.setGang_actor (g : Nat) (x : Gang) : (s.setGang g x).actor = s.actor := rfl
@[simp] theorem State.setGang_inputs (g : Nat) (x : Gang) : (s.setGang g x).inputs = s.inputs := rfl
@[simp] theorem State.setGang_nextTurn (g : Nat) (x : Gang) : (s.setGang g x).nextTurn = s.nextTurn := rfl
@[simp] theorem State.setGang_sched (g : Nat) (x : Gang) : (s.setGang g x).sched = s.sched := rfl
@[simp] theorem State.setGang_placings (g : Nat) (x : Gang) : (s.setGang g x).placings = s.placings := rfl
@[simp] theorem State.setGang_engine (g : Nat) (x : Gang) : (s.setGang g x).engine = s.engine := rfl
@[simp] theorem State.setGang_drawn (g : Nat) (x : Gang) : (s.setGang g x).drawn = s.drawn := rfl
@[simp] theorem State.setGang_caps (g : Nat) (x : Gang) : (s.setGang g x).caps = s.caps := rfl
@[simp] theorem State.setGang_turns (g : Nat) (x : Gang) : (s.setGang g x).turns = s.turns := rfl

@[simp] theorem State.updLaunch_powered (n : Nat) (f : Launch → Launch) : (s.updLaunch n f).powered = s.powered := rfl
@[simp] theorem State.updLaunch_warps (n : Nat) (f : Launch → Launch) : (s.updLaunch n f).warps = s.warps := rfl
@[simp] theorem State.updLaunch_gangs (n : Nat) (f : Launch → Launch) : (s.updLaunch n f).gangs = s.gangs := rfl
@[simp] theorem State.updLaunch_ctxs (n : Nat) (f : Launch → Launch) : (s.updLaunch n f).ctxs = s.ctxs := rfl
@[simp] theorem State.updLaunch_parts (n : Nat) (f : Launch → Launch) : (s.updLaunch n f).parts = s.parts := rfl
@[simp] theorem State.updLaunch_quads (n : Nat) (f : Launch → Launch) : (s.updLaunch n f).quads = s.quads := rfl
@[simp] theorem State.updLaunch_clusters (n : Nat) (f : Launch → Launch) : (s.updLaunch n f).clusters = s.clusters := rfl
@[simp] theorem State.updLaunch_mem (n : Nat) (f : Launch → Launch) : (s.updLaunch n f).mem = s.mem := rfl
@[simp] theorem State.updLaunch_ports (n : Nat) (f : Launch → Launch) : (s.updLaunch n f).ports = s.ports := rfl
@[simp] theorem State.updLaunch_pats (n : Nat) (f : Launch → Launch) : (s.updLaunch n f).pats = s.pats := rfl
@[simp] theorem State.updLaunch_outbox (n : Nat) (f : Launch → Launch) : (s.updLaunch n f).outbox = s.outbox := rfl
@[simp] theorem State.updLaunch_unitQ (n : Nat) (f : Launch → Launch) : (s.updLaunch n f).unitQ = s.unitQ := rfl
@[simp] theorem State.updLaunch_heaps (n : Nat) (f : Launch → Launch) : (s.updLaunch n f).heaps = s.heaps := rfl
@[simp] theorem State.updLaunch_heapQ (n : Nat) (f : Launch → Launch) : (s.updLaunch n f).heapQ = s.heapQ := rfl
@[simp] theorem State.updLaunch_tlb (n : Nat) (f : Launch → Launch) : (s.updLaunch n f).tlb = s.tlb := rfl
@[simp] theorem State.updLaunch_walks (n : Nat) (f : Launch → Launch) : (s.updLaunch n f).walks = s.walks := rfl
@[simp] theorem State.updLaunch_jobs (n : Nat) (f : Launch → Launch) : (s.updLaunch n f).jobs = s.jobs := rfl
@[simp] theorem State.updLaunch_placed (n : Nat) (f : Launch → Launch) : (s.updLaunch n f).placed = s.placed := rfl
@[simp] theorem State.updLaunch_fns (n : Nat) (f : Launch → Launch) : (s.updLaunch n f).fns = s.fns := rfl
@[simp] theorem State.updLaunch_links (n : Nat) (f : Launch → Launch) : (s.updLaunch n f).links = s.links := rfl
@[simp] theorem State.updLaunch_mc (n : Nat) (f : Launch → Launch) : (s.updLaunch n f).mc = s.mc := rfl
@[simp] theorem State.updLaunch_lines (n : Nat) (f : Launch → Launch) : (s.updLaunch n f).lines = s.lines := rfl
@[simp] theorem State.updLaunch_poisonLine (n : Nat) (f : Launch → Launch) : (s.updLaunch n f).poisonLine = s.poisonLine := rfl
@[simp] theorem State.updLaunch_poisonUnit (n : Nat) (f : Launch → Launch) : (s.updLaunch n f).poisonUnit = s.poisonUnit := rfl
@[simp] theorem State.updLaunch_owners (n : Nat) (f : Launch → Launch) : (s.updLaunch n f).owners = s.owners := rfl
@[simp] theorem State.updLaunch_portOps (n : Nat) (f : Launch → Launch) : (s.updLaunch n f).portOps = s.portOps := rfl
@[simp] theorem State.updLaunch_heldStores (n : Nat) (f : Launch → Launch) : (s.updLaunch n f).heldStores = s.heldStores := rfl
@[simp] theorem State.updLaunch_holds (n : Nat) (f : Launch → Launch) : (s.updLaunch n f).holds = s.holds := rfl
@[simp] theorem State.updLaunch_debts (n : Nat) (f : Launch → Launch) : (s.updLaunch n f).debts = s.debts := rfl
@[simp] theorem State.updLaunch_acks (n : Nat) (f : Launch → Launch) : (s.updLaunch n f).acks = s.acks := rfl
@[simp] theorem State.updLaunch_hostStores (n : Nat) (f : Launch → Launch) : (s.updLaunch n f).hostStores = s.hostStores := rfl
@[simp] theorem State.updLaunch_copies (n : Nat) (f : Launch → Launch) : (s.updLaunch n f).copies = s.copies := rfl
@[simp] theorem State.updLaunch_colls (n : Nat) (f : Launch → Launch) : (s.updLaunch n f).colls = s.colls := rfl
@[simp] theorem State.updLaunch_sends (n : Nat) (f : Launch → Launch) : (s.updLaunch n f).sends = s.sends := rfl
@[simp] theorem State.updLaunch_ens (n : Nat) (f : Launch → Launch) : (s.updLaunch n f).ens = s.ens := rfl
@[simp] theorem State.updLaunch_unreach (n : Nat) (f : Launch → Launch) : (s.updLaunch n f).unreach = s.unreach := rfl
@[simp] theorem State.updLaunch_hostAtomics (n : Nat) (f : Launch → Launch) : (s.updLaunch n f).hostAtomics = s.hostAtomics := rfl
@[simp] theorem State.updLaunch_remoteFlags (n : Nat) (f : Launch → Launch) : (s.updLaunch n f).remoteFlags = s.remoteFlags := rfl
@[simp] theorem State.updLaunch_history (n : Nat) (f : Launch → Launch) : (s.updLaunch n f).history = s.history := rfl
@[simp] theorem State.updLaunch_logs (n : Nat) (f : Launch → Launch) : (s.updLaunch n f).logs = s.logs := rfl
@[simp] theorem State.updLaunch_clock (n : Nat) (f : Launch → Launch) : (s.updLaunch n f).clock = s.clock := rfl
@[simp] theorem State.updLaunch_phc (n : Nat) (f : Launch → Launch) : (s.updLaunch n f).phc = s.phc := rfl
@[simp] theorem State.updLaunch_nextUid (n : Nat) (f : Launch → Launch) : (s.updLaunch n f).nextUid = s.nextUid := rfl
@[simp] theorem State.updLaunch_actor (n : Nat) (f : Launch → Launch) : (s.updLaunch n f).actor = s.actor := rfl
@[simp] theorem State.updLaunch_inputs (n : Nat) (f : Launch → Launch) : (s.updLaunch n f).inputs = s.inputs := rfl
@[simp] theorem State.updLaunch_nextTurn (n : Nat) (f : Launch → Launch) : (s.updLaunch n f).nextTurn = s.nextTurn := rfl
@[simp] theorem State.updLaunch_sched (n : Nat) (f : Launch → Launch) : (s.updLaunch n f).sched = s.sched := rfl
@[simp] theorem State.updLaunch_placings (n : Nat) (f : Launch → Launch) : (s.updLaunch n f).placings = s.placings := rfl
@[simp] theorem State.updLaunch_engine (n : Nat) (f : Launch → Launch) : (s.updLaunch n f).engine = s.engine := rfl
@[simp] theorem State.updLaunch_drawn (n : Nat) (f : Launch → Launch) : (s.updLaunch n f).drawn = s.drawn := rfl
@[simp] theorem State.updLaunch_caps (n : Nat) (f : Launch → Launch) : (s.updLaunch n f).caps = s.caps := rfl
@[simp] theorem State.updLaunch_turns (n : Nat) (f : Launch → Launch) : (s.updLaunch n f).turns = s.turns := rfl

@[simp] theorem State.updCtx_powered (k : Nat) (f : Ctx → Ctx) : (s.updCtx k f).powered = s.powered := rfl
@[simp] theorem State.updCtx_warps (k : Nat) (f : Ctx → Ctx) : (s.updCtx k f).warps = s.warps := rfl
@[simp] theorem State.updCtx_gangs (k : Nat) (f : Ctx → Ctx) : (s.updCtx k f).gangs = s.gangs := rfl
@[simp] theorem State.updCtx_launches (k : Nat) (f : Ctx → Ctx) : (s.updCtx k f).launches = s.launches := rfl
@[simp] theorem State.updCtx_parts (k : Nat) (f : Ctx → Ctx) : (s.updCtx k f).parts = s.parts := rfl
@[simp] theorem State.updCtx_quads (k : Nat) (f : Ctx → Ctx) : (s.updCtx k f).quads = s.quads := rfl
@[simp] theorem State.updCtx_clusters (k : Nat) (f : Ctx → Ctx) : (s.updCtx k f).clusters = s.clusters := rfl
@[simp] theorem State.updCtx_mem (k : Nat) (f : Ctx → Ctx) : (s.updCtx k f).mem = s.mem := rfl
@[simp] theorem State.updCtx_ports (k : Nat) (f : Ctx → Ctx) : (s.updCtx k f).ports = s.ports := rfl
@[simp] theorem State.updCtx_pats (k : Nat) (f : Ctx → Ctx) : (s.updCtx k f).pats = s.pats := rfl
@[simp] theorem State.updCtx_outbox (k : Nat) (f : Ctx → Ctx) : (s.updCtx k f).outbox = s.outbox := rfl
@[simp] theorem State.updCtx_unitQ (k : Nat) (f : Ctx → Ctx) : (s.updCtx k f).unitQ = s.unitQ := rfl
@[simp] theorem State.updCtx_heaps (k : Nat) (f : Ctx → Ctx) : (s.updCtx k f).heaps = s.heaps := rfl
@[simp] theorem State.updCtx_heapQ (k : Nat) (f : Ctx → Ctx) : (s.updCtx k f).heapQ = s.heapQ := rfl
@[simp] theorem State.updCtx_tlb (k : Nat) (f : Ctx → Ctx) : (s.updCtx k f).tlb = s.tlb := rfl
@[simp] theorem State.updCtx_walks (k : Nat) (f : Ctx → Ctx) : (s.updCtx k f).walks = s.walks := rfl
@[simp] theorem State.updCtx_jobs (k : Nat) (f : Ctx → Ctx) : (s.updCtx k f).jobs = s.jobs := rfl
@[simp] theorem State.updCtx_placed (k : Nat) (f : Ctx → Ctx) : (s.updCtx k f).placed = s.placed := rfl
@[simp] theorem State.updCtx_fns (k : Nat) (f : Ctx → Ctx) : (s.updCtx k f).fns = s.fns := rfl
@[simp] theorem State.updCtx_links (k : Nat) (f : Ctx → Ctx) : (s.updCtx k f).links = s.links := rfl
@[simp] theorem State.updCtx_mc (k : Nat) (f : Ctx → Ctx) : (s.updCtx k f).mc = s.mc := rfl
@[simp] theorem State.updCtx_lines (k : Nat) (f : Ctx → Ctx) : (s.updCtx k f).lines = s.lines := rfl
@[simp] theorem State.updCtx_poisonLine (k : Nat) (f : Ctx → Ctx) : (s.updCtx k f).poisonLine = s.poisonLine := rfl
@[simp] theorem State.updCtx_poisonUnit (k : Nat) (f : Ctx → Ctx) : (s.updCtx k f).poisonUnit = s.poisonUnit := rfl
@[simp] theorem State.updCtx_owners (k : Nat) (f : Ctx → Ctx) : (s.updCtx k f).owners = s.owners := rfl
@[simp] theorem State.updCtx_portOps (k : Nat) (f : Ctx → Ctx) : (s.updCtx k f).portOps = s.portOps := rfl
@[simp] theorem State.updCtx_heldStores (k : Nat) (f : Ctx → Ctx) : (s.updCtx k f).heldStores = s.heldStores := rfl
@[simp] theorem State.updCtx_holds (k : Nat) (f : Ctx → Ctx) : (s.updCtx k f).holds = s.holds := rfl
@[simp] theorem State.updCtx_debts (k : Nat) (f : Ctx → Ctx) : (s.updCtx k f).debts = s.debts := rfl
@[simp] theorem State.updCtx_acks (k : Nat) (f : Ctx → Ctx) : (s.updCtx k f).acks = s.acks := rfl
@[simp] theorem State.updCtx_hostStores (k : Nat) (f : Ctx → Ctx) : (s.updCtx k f).hostStores = s.hostStores := rfl
@[simp] theorem State.updCtx_copies (k : Nat) (f : Ctx → Ctx) : (s.updCtx k f).copies = s.copies := rfl
@[simp] theorem State.updCtx_colls (k : Nat) (f : Ctx → Ctx) : (s.updCtx k f).colls = s.colls := rfl
@[simp] theorem State.updCtx_sends (k : Nat) (f : Ctx → Ctx) : (s.updCtx k f).sends = s.sends := rfl
@[simp] theorem State.updCtx_ens (k : Nat) (f : Ctx → Ctx) : (s.updCtx k f).ens = s.ens := rfl
@[simp] theorem State.updCtx_unreach (k : Nat) (f : Ctx → Ctx) : (s.updCtx k f).unreach = s.unreach := rfl
@[simp] theorem State.updCtx_hostAtomics (k : Nat) (f : Ctx → Ctx) : (s.updCtx k f).hostAtomics = s.hostAtomics := rfl
@[simp] theorem State.updCtx_remoteFlags (k : Nat) (f : Ctx → Ctx) : (s.updCtx k f).remoteFlags = s.remoteFlags := rfl
@[simp] theorem State.updCtx_history (k : Nat) (f : Ctx → Ctx) : (s.updCtx k f).history = s.history := rfl
@[simp] theorem State.updCtx_logs (k : Nat) (f : Ctx → Ctx) : (s.updCtx k f).logs = s.logs := rfl
@[simp] theorem State.updCtx_clock (k : Nat) (f : Ctx → Ctx) : (s.updCtx k f).clock = s.clock := rfl
@[simp] theorem State.updCtx_phc (k : Nat) (f : Ctx → Ctx) : (s.updCtx k f).phc = s.phc := rfl
@[simp] theorem State.updCtx_nextUid (k : Nat) (f : Ctx → Ctx) : (s.updCtx k f).nextUid = s.nextUid := rfl
@[simp] theorem State.updCtx_actor (k : Nat) (f : Ctx → Ctx) : (s.updCtx k f).actor = s.actor := rfl
@[simp] theorem State.updCtx_inputs (k : Nat) (f : Ctx → Ctx) : (s.updCtx k f).inputs = s.inputs := rfl
@[simp] theorem State.updCtx_nextTurn (k : Nat) (f : Ctx → Ctx) : (s.updCtx k f).nextTurn = s.nextTurn := rfl
@[simp] theorem State.updCtx_sched (k : Nat) (f : Ctx → Ctx) : (s.updCtx k f).sched = s.sched := rfl
@[simp] theorem State.updCtx_placings (k : Nat) (f : Ctx → Ctx) : (s.updCtx k f).placings = s.placings := rfl
@[simp] theorem State.updCtx_engine (k : Nat) (f : Ctx → Ctx) : (s.updCtx k f).engine = s.engine := rfl
@[simp] theorem State.updCtx_drawn (k : Nat) (f : Ctx → Ctx) : (s.updCtx k f).drawn = s.drawn := rfl
@[simp] theorem State.updCtx_caps (k : Nat) (f : Ctx → Ctx) : (s.updCtx k f).caps = s.caps := rfl
@[simp] theorem State.updCtx_turns (k : Nat) (f : Ctx → Ctx) : (s.updCtx k f).turns = s.turns := rfl

@[simp] theorem State.updPart_powered (p : Nat) (f : Partition → Partition) : (s.updPart p f).powered = s.powered := rfl
@[simp] theorem State.updPart_warps (p : Nat) (f : Partition → Partition) : (s.updPart p f).warps = s.warps := rfl
@[simp] theorem State.updPart_gangs (p : Nat) (f : Partition → Partition) : (s.updPart p f).gangs = s.gangs := rfl
@[simp] theorem State.updPart_launches (p : Nat) (f : Partition → Partition) : (s.updPart p f).launches = s.launches := rfl
@[simp] theorem State.updPart_ctxs (p : Nat) (f : Partition → Partition) : (s.updPart p f).ctxs = s.ctxs := rfl
@[simp] theorem State.updPart_quads (p : Nat) (f : Partition → Partition) : (s.updPart p f).quads = s.quads := rfl
@[simp] theorem State.updPart_clusters (p : Nat) (f : Partition → Partition) : (s.updPart p f).clusters = s.clusters := rfl
@[simp] theorem State.updPart_mem (p : Nat) (f : Partition → Partition) : (s.updPart p f).mem = s.mem := rfl
@[simp] theorem State.updPart_ports (p : Nat) (f : Partition → Partition) : (s.updPart p f).ports = s.ports := rfl
@[simp] theorem State.updPart_pats (p : Nat) (f : Partition → Partition) : (s.updPart p f).pats = s.pats := rfl
@[simp] theorem State.updPart_outbox (p : Nat) (f : Partition → Partition) : (s.updPart p f).outbox = s.outbox := rfl
@[simp] theorem State.updPart_unitQ (p : Nat) (f : Partition → Partition) : (s.updPart p f).unitQ = s.unitQ := rfl
@[simp] theorem State.updPart_heaps (p : Nat) (f : Partition → Partition) : (s.updPart p f).heaps = s.heaps := rfl
@[simp] theorem State.updPart_heapQ (p : Nat) (f : Partition → Partition) : (s.updPart p f).heapQ = s.heapQ := rfl
@[simp] theorem State.updPart_tlb (p : Nat) (f : Partition → Partition) : (s.updPart p f).tlb = s.tlb := rfl
@[simp] theorem State.updPart_walks (p : Nat) (f : Partition → Partition) : (s.updPart p f).walks = s.walks := rfl
@[simp] theorem State.updPart_jobs (p : Nat) (f : Partition → Partition) : (s.updPart p f).jobs = s.jobs := rfl
@[simp] theorem State.updPart_placed (p : Nat) (f : Partition → Partition) : (s.updPart p f).placed = s.placed := rfl
@[simp] theorem State.updPart_fns (p : Nat) (f : Partition → Partition) : (s.updPart p f).fns = s.fns := rfl
@[simp] theorem State.updPart_links (p : Nat) (f : Partition → Partition) : (s.updPart p f).links = s.links := rfl
@[simp] theorem State.updPart_mc (p : Nat) (f : Partition → Partition) : (s.updPart p f).mc = s.mc := rfl
@[simp] theorem State.updPart_lines (p : Nat) (f : Partition → Partition) : (s.updPart p f).lines = s.lines := rfl
@[simp] theorem State.updPart_poisonLine (p : Nat) (f : Partition → Partition) : (s.updPart p f).poisonLine = s.poisonLine := rfl
@[simp] theorem State.updPart_poisonUnit (p : Nat) (f : Partition → Partition) : (s.updPart p f).poisonUnit = s.poisonUnit := rfl
@[simp] theorem State.updPart_owners (p : Nat) (f : Partition → Partition) : (s.updPart p f).owners = s.owners := rfl
@[simp] theorem State.updPart_portOps (p : Nat) (f : Partition → Partition) : (s.updPart p f).portOps = s.portOps := rfl
@[simp] theorem State.updPart_heldStores (p : Nat) (f : Partition → Partition) : (s.updPart p f).heldStores = s.heldStores := rfl
@[simp] theorem State.updPart_holds (p : Nat) (f : Partition → Partition) : (s.updPart p f).holds = s.holds := rfl
@[simp] theorem State.updPart_debts (p : Nat) (f : Partition → Partition) : (s.updPart p f).debts = s.debts := rfl
@[simp] theorem State.updPart_acks (p : Nat) (f : Partition → Partition) : (s.updPart p f).acks = s.acks := rfl
@[simp] theorem State.updPart_hostStores (p : Nat) (f : Partition → Partition) : (s.updPart p f).hostStores = s.hostStores := rfl
@[simp] theorem State.updPart_copies (p : Nat) (f : Partition → Partition) : (s.updPart p f).copies = s.copies := rfl
@[simp] theorem State.updPart_colls (p : Nat) (f : Partition → Partition) : (s.updPart p f).colls = s.colls := rfl
@[simp] theorem State.updPart_sends (p : Nat) (f : Partition → Partition) : (s.updPart p f).sends = s.sends := rfl
@[simp] theorem State.updPart_ens (p : Nat) (f : Partition → Partition) : (s.updPart p f).ens = s.ens := rfl
@[simp] theorem State.updPart_unreach (p : Nat) (f : Partition → Partition) : (s.updPart p f).unreach = s.unreach := rfl
@[simp] theorem State.updPart_hostAtomics (p : Nat) (f : Partition → Partition) : (s.updPart p f).hostAtomics = s.hostAtomics := rfl
@[simp] theorem State.updPart_remoteFlags (p : Nat) (f : Partition → Partition) : (s.updPart p f).remoteFlags = s.remoteFlags := rfl
@[simp] theorem State.updPart_history (p : Nat) (f : Partition → Partition) : (s.updPart p f).history = s.history := rfl
@[simp] theorem State.updPart_logs (p : Nat) (f : Partition → Partition) : (s.updPart p f).logs = s.logs := rfl
@[simp] theorem State.updPart_clock (p : Nat) (f : Partition → Partition) : (s.updPart p f).clock = s.clock := rfl
@[simp] theorem State.updPart_phc (p : Nat) (f : Partition → Partition) : (s.updPart p f).phc = s.phc := rfl
@[simp] theorem State.updPart_nextUid (p : Nat) (f : Partition → Partition) : (s.updPart p f).nextUid = s.nextUid := rfl
@[simp] theorem State.updPart_actor (p : Nat) (f : Partition → Partition) : (s.updPart p f).actor = s.actor := rfl
@[simp] theorem State.updPart_inputs (p : Nat) (f : Partition → Partition) : (s.updPart p f).inputs = s.inputs := rfl
@[simp] theorem State.updPart_nextTurn (p : Nat) (f : Partition → Partition) : (s.updPart p f).nextTurn = s.nextTurn := rfl
@[simp] theorem State.updPart_sched (p : Nat) (f : Partition → Partition) : (s.updPart p f).sched = s.sched := rfl
@[simp] theorem State.updPart_placings (p : Nat) (f : Partition → Partition) : (s.updPart p f).placings = s.placings := rfl
@[simp] theorem State.updPart_engine (p : Nat) (f : Partition → Partition) : (s.updPart p f).engine = s.engine := rfl
@[simp] theorem State.updPart_drawn (p : Nat) (f : Partition → Partition) : (s.updPart p f).drawn = s.drawn := rfl
@[simp] theorem State.updPart_caps (p : Nat) (f : Partition → Partition) : (s.updPart p f).caps = s.caps := rfl
@[simp] theorem State.updPart_turns (p : Nat) (f : Partition → Partition) : (s.updPart p f).turns = s.turns := rfl

@[simp] theorem State.updQuad_powered (q : Nat) (f : Quad → Quad) : (s.updQuad q f).powered = s.powered := rfl
@[simp] theorem State.updQuad_warps (q : Nat) (f : Quad → Quad) : (s.updQuad q f).warps = s.warps := rfl
@[simp] theorem State.updQuad_gangs (q : Nat) (f : Quad → Quad) : (s.updQuad q f).gangs = s.gangs := rfl
@[simp] theorem State.updQuad_launches (q : Nat) (f : Quad → Quad) : (s.updQuad q f).launches = s.launches := rfl
@[simp] theorem State.updQuad_ctxs (q : Nat) (f : Quad → Quad) : (s.updQuad q f).ctxs = s.ctxs := rfl
@[simp] theorem State.updQuad_parts (q : Nat) (f : Quad → Quad) : (s.updQuad q f).parts = s.parts := rfl
@[simp] theorem State.updQuad_clusters (q : Nat) (f : Quad → Quad) : (s.updQuad q f).clusters = s.clusters := rfl
@[simp] theorem State.updQuad_mem (q : Nat) (f : Quad → Quad) : (s.updQuad q f).mem = s.mem := rfl
@[simp] theorem State.updQuad_ports (q : Nat) (f : Quad → Quad) : (s.updQuad q f).ports = s.ports := rfl
@[simp] theorem State.updQuad_pats (q : Nat) (f : Quad → Quad) : (s.updQuad q f).pats = s.pats := rfl
@[simp] theorem State.updQuad_outbox (q : Nat) (f : Quad → Quad) : (s.updQuad q f).outbox = s.outbox := rfl
@[simp] theorem State.updQuad_unitQ (q : Nat) (f : Quad → Quad) : (s.updQuad q f).unitQ = s.unitQ := rfl
@[simp] theorem State.updQuad_heaps (q : Nat) (f : Quad → Quad) : (s.updQuad q f).heaps = s.heaps := rfl
@[simp] theorem State.updQuad_heapQ (q : Nat) (f : Quad → Quad) : (s.updQuad q f).heapQ = s.heapQ := rfl
@[simp] theorem State.updQuad_tlb (q : Nat) (f : Quad → Quad) : (s.updQuad q f).tlb = s.tlb := rfl
@[simp] theorem State.updQuad_walks (q : Nat) (f : Quad → Quad) : (s.updQuad q f).walks = s.walks := rfl
@[simp] theorem State.updQuad_jobs (q : Nat) (f : Quad → Quad) : (s.updQuad q f).jobs = s.jobs := rfl
@[simp] theorem State.updQuad_placed (q : Nat) (f : Quad → Quad) : (s.updQuad q f).placed = s.placed := rfl
@[simp] theorem State.updQuad_fns (q : Nat) (f : Quad → Quad) : (s.updQuad q f).fns = s.fns := rfl
@[simp] theorem State.updQuad_links (q : Nat) (f : Quad → Quad) : (s.updQuad q f).links = s.links := rfl
@[simp] theorem State.updQuad_mc (q : Nat) (f : Quad → Quad) : (s.updQuad q f).mc = s.mc := rfl
@[simp] theorem State.updQuad_lines (q : Nat) (f : Quad → Quad) : (s.updQuad q f).lines = s.lines := rfl
@[simp] theorem State.updQuad_poisonLine (q : Nat) (f : Quad → Quad) : (s.updQuad q f).poisonLine = s.poisonLine := rfl
@[simp] theorem State.updQuad_poisonUnit (q : Nat) (f : Quad → Quad) : (s.updQuad q f).poisonUnit = s.poisonUnit := rfl
@[simp] theorem State.updQuad_owners (q : Nat) (f : Quad → Quad) : (s.updQuad q f).owners = s.owners := rfl
@[simp] theorem State.updQuad_portOps (q : Nat) (f : Quad → Quad) : (s.updQuad q f).portOps = s.portOps := rfl
@[simp] theorem State.updQuad_heldStores (q : Nat) (f : Quad → Quad) : (s.updQuad q f).heldStores = s.heldStores := rfl
@[simp] theorem State.updQuad_holds (q : Nat) (f : Quad → Quad) : (s.updQuad q f).holds = s.holds := rfl
@[simp] theorem State.updQuad_debts (q : Nat) (f : Quad → Quad) : (s.updQuad q f).debts = s.debts := rfl
@[simp] theorem State.updQuad_acks (q : Nat) (f : Quad → Quad) : (s.updQuad q f).acks = s.acks := rfl
@[simp] theorem State.updQuad_hostStores (q : Nat) (f : Quad → Quad) : (s.updQuad q f).hostStores = s.hostStores := rfl
@[simp] theorem State.updQuad_copies (q : Nat) (f : Quad → Quad) : (s.updQuad q f).copies = s.copies := rfl
@[simp] theorem State.updQuad_colls (q : Nat) (f : Quad → Quad) : (s.updQuad q f).colls = s.colls := rfl
@[simp] theorem State.updQuad_sends (q : Nat) (f : Quad → Quad) : (s.updQuad q f).sends = s.sends := rfl
@[simp] theorem State.updQuad_ens (q : Nat) (f : Quad → Quad) : (s.updQuad q f).ens = s.ens := rfl
@[simp] theorem State.updQuad_unreach (q : Nat) (f : Quad → Quad) : (s.updQuad q f).unreach = s.unreach := rfl
@[simp] theorem State.updQuad_hostAtomics (q : Nat) (f : Quad → Quad) : (s.updQuad q f).hostAtomics = s.hostAtomics := rfl
@[simp] theorem State.updQuad_remoteFlags (q : Nat) (f : Quad → Quad) : (s.updQuad q f).remoteFlags = s.remoteFlags := rfl
@[simp] theorem State.updQuad_history (q : Nat) (f : Quad → Quad) : (s.updQuad q f).history = s.history := rfl
@[simp] theorem State.updQuad_logs (q : Nat) (f : Quad → Quad) : (s.updQuad q f).logs = s.logs := rfl
@[simp] theorem State.updQuad_clock (q : Nat) (f : Quad → Quad) : (s.updQuad q f).clock = s.clock := rfl
@[simp] theorem State.updQuad_phc (q : Nat) (f : Quad → Quad) : (s.updQuad q f).phc = s.phc := rfl
@[simp] theorem State.updQuad_nextUid (q : Nat) (f : Quad → Quad) : (s.updQuad q f).nextUid = s.nextUid := rfl
@[simp] theorem State.updQuad_actor (q : Nat) (f : Quad → Quad) : (s.updQuad q f).actor = s.actor := rfl
@[simp] theorem State.updQuad_inputs (q : Nat) (f : Quad → Quad) : (s.updQuad q f).inputs = s.inputs := rfl
@[simp] theorem State.updQuad_nextTurn (q : Nat) (f : Quad → Quad) : (s.updQuad q f).nextTurn = s.nextTurn := rfl
@[simp] theorem State.updQuad_sched (q : Nat) (f : Quad → Quad) : (s.updQuad q f).sched = s.sched := rfl
@[simp] theorem State.updQuad_placings (q : Nat) (f : Quad → Quad) : (s.updQuad q f).placings = s.placings := rfl
@[simp] theorem State.updQuad_engine (q : Nat) (f : Quad → Quad) : (s.updQuad q f).engine = s.engine := rfl
@[simp] theorem State.updQuad_drawn (q : Nat) (f : Quad → Quad) : (s.updQuad q f).drawn = s.drawn := rfl
@[simp] theorem State.updQuad_caps (q : Nat) (f : Quad → Quad) : (s.updQuad q f).caps = s.caps := rfl
@[simp] theorem State.updQuad_turns (q : Nat) (f : Quad → Quad) : (s.updQuad q f).turns = s.turns := rfl

@[simp] theorem State.updCluster_powered (c : Nat) (f : Cluster → Cluster) : (s.updCluster c f).powered = s.powered := rfl
@[simp] theorem State.updCluster_warps (c : Nat) (f : Cluster → Cluster) : (s.updCluster c f).warps = s.warps := rfl
@[simp] theorem State.updCluster_gangs (c : Nat) (f : Cluster → Cluster) : (s.updCluster c f).gangs = s.gangs := rfl
@[simp] theorem State.updCluster_launches (c : Nat) (f : Cluster → Cluster) : (s.updCluster c f).launches = s.launches := rfl
@[simp] theorem State.updCluster_ctxs (c : Nat) (f : Cluster → Cluster) : (s.updCluster c f).ctxs = s.ctxs := rfl
@[simp] theorem State.updCluster_parts (c : Nat) (f : Cluster → Cluster) : (s.updCluster c f).parts = s.parts := rfl
@[simp] theorem State.updCluster_quads (c : Nat) (f : Cluster → Cluster) : (s.updCluster c f).quads = s.quads := rfl
@[simp] theorem State.updCluster_mem (c : Nat) (f : Cluster → Cluster) : (s.updCluster c f).mem = s.mem := rfl
@[simp] theorem State.updCluster_ports (c : Nat) (f : Cluster → Cluster) : (s.updCluster c f).ports = s.ports := rfl
@[simp] theorem State.updCluster_pats (c : Nat) (f : Cluster → Cluster) : (s.updCluster c f).pats = s.pats := rfl
@[simp] theorem State.updCluster_outbox (c : Nat) (f : Cluster → Cluster) : (s.updCluster c f).outbox = s.outbox := rfl
@[simp] theorem State.updCluster_unitQ (c : Nat) (f : Cluster → Cluster) : (s.updCluster c f).unitQ = s.unitQ := rfl
@[simp] theorem State.updCluster_heaps (c : Nat) (f : Cluster → Cluster) : (s.updCluster c f).heaps = s.heaps := rfl
@[simp] theorem State.updCluster_heapQ (c : Nat) (f : Cluster → Cluster) : (s.updCluster c f).heapQ = s.heapQ := rfl
@[simp] theorem State.updCluster_tlb (c : Nat) (f : Cluster → Cluster) : (s.updCluster c f).tlb = s.tlb := rfl
@[simp] theorem State.updCluster_walks (c : Nat) (f : Cluster → Cluster) : (s.updCluster c f).walks = s.walks := rfl
@[simp] theorem State.updCluster_jobs (c : Nat) (f : Cluster → Cluster) : (s.updCluster c f).jobs = s.jobs := rfl
@[simp] theorem State.updCluster_placed (c : Nat) (f : Cluster → Cluster) : (s.updCluster c f).placed = s.placed := rfl
@[simp] theorem State.updCluster_fns (c : Nat) (f : Cluster → Cluster) : (s.updCluster c f).fns = s.fns := rfl
@[simp] theorem State.updCluster_links (c : Nat) (f : Cluster → Cluster) : (s.updCluster c f).links = s.links := rfl
@[simp] theorem State.updCluster_mc (c : Nat) (f : Cluster → Cluster) : (s.updCluster c f).mc = s.mc := rfl
@[simp] theorem State.updCluster_lines (c : Nat) (f : Cluster → Cluster) : (s.updCluster c f).lines = s.lines := rfl
@[simp] theorem State.updCluster_poisonLine (c : Nat) (f : Cluster → Cluster) : (s.updCluster c f).poisonLine = s.poisonLine := rfl
@[simp] theorem State.updCluster_poisonUnit (c : Nat) (f : Cluster → Cluster) : (s.updCluster c f).poisonUnit = s.poisonUnit := rfl
@[simp] theorem State.updCluster_owners (c : Nat) (f : Cluster → Cluster) : (s.updCluster c f).owners = s.owners := rfl
@[simp] theorem State.updCluster_portOps (c : Nat) (f : Cluster → Cluster) : (s.updCluster c f).portOps = s.portOps := rfl
@[simp] theorem State.updCluster_heldStores (c : Nat) (f : Cluster → Cluster) : (s.updCluster c f).heldStores = s.heldStores := rfl
@[simp] theorem State.updCluster_holds (c : Nat) (f : Cluster → Cluster) : (s.updCluster c f).holds = s.holds := rfl
@[simp] theorem State.updCluster_debts (c : Nat) (f : Cluster → Cluster) : (s.updCluster c f).debts = s.debts := rfl
@[simp] theorem State.updCluster_acks (c : Nat) (f : Cluster → Cluster) : (s.updCluster c f).acks = s.acks := rfl
@[simp] theorem State.updCluster_hostStores (c : Nat) (f : Cluster → Cluster) : (s.updCluster c f).hostStores = s.hostStores := rfl
@[simp] theorem State.updCluster_copies (c : Nat) (f : Cluster → Cluster) : (s.updCluster c f).copies = s.copies := rfl
@[simp] theorem State.updCluster_colls (c : Nat) (f : Cluster → Cluster) : (s.updCluster c f).colls = s.colls := rfl
@[simp] theorem State.updCluster_sends (c : Nat) (f : Cluster → Cluster) : (s.updCluster c f).sends = s.sends := rfl
@[simp] theorem State.updCluster_ens (c : Nat) (f : Cluster → Cluster) : (s.updCluster c f).ens = s.ens := rfl
@[simp] theorem State.updCluster_unreach (c : Nat) (f : Cluster → Cluster) : (s.updCluster c f).unreach = s.unreach := rfl
@[simp] theorem State.updCluster_hostAtomics (c : Nat) (f : Cluster → Cluster) : (s.updCluster c f).hostAtomics = s.hostAtomics := rfl
@[simp] theorem State.updCluster_remoteFlags (c : Nat) (f : Cluster → Cluster) : (s.updCluster c f).remoteFlags = s.remoteFlags := rfl
@[simp] theorem State.updCluster_history (c : Nat) (f : Cluster → Cluster) : (s.updCluster c f).history = s.history := rfl
@[simp] theorem State.updCluster_logs (c : Nat) (f : Cluster → Cluster) : (s.updCluster c f).logs = s.logs := rfl
@[simp] theorem State.updCluster_clock (c : Nat) (f : Cluster → Cluster) : (s.updCluster c f).clock = s.clock := rfl
@[simp] theorem State.updCluster_phc (c : Nat) (f : Cluster → Cluster) : (s.updCluster c f).phc = s.phc := rfl
@[simp] theorem State.updCluster_nextUid (c : Nat) (f : Cluster → Cluster) : (s.updCluster c f).nextUid = s.nextUid := rfl
@[simp] theorem State.updCluster_actor (c : Nat) (f : Cluster → Cluster) : (s.updCluster c f).actor = s.actor := rfl
@[simp] theorem State.updCluster_inputs (c : Nat) (f : Cluster → Cluster) : (s.updCluster c f).inputs = s.inputs := rfl
@[simp] theorem State.updCluster_nextTurn (c : Nat) (f : Cluster → Cluster) : (s.updCluster c f).nextTurn = s.nextTurn := rfl
@[simp] theorem State.updCluster_sched (c : Nat) (f : Cluster → Cluster) : (s.updCluster c f).sched = s.sched := rfl
@[simp] theorem State.updCluster_placings (c : Nat) (f : Cluster → Cluster) : (s.updCluster c f).placings = s.placings := rfl
@[simp] theorem State.updCluster_engine (c : Nat) (f : Cluster → Cluster) : (s.updCluster c f).engine = s.engine := rfl
@[simp] theorem State.updCluster_drawn (c : Nat) (f : Cluster → Cluster) : (s.updCluster c f).drawn = s.drawn := rfl
@[simp] theorem State.updCluster_caps (c : Nat) (f : Cluster → Cluster) : (s.updCluster c f).caps = s.caps := rfl
@[simp] theorem State.updCluster_turns (c : Nat) (f : Cluster → Cluster) : (s.updCluster c f).turns = s.turns := rfl

@[simp] theorem State.updPort_powered (k : Nat) (f : Port → Port) : (s.updPort k f).powered = s.powered := rfl
@[simp] theorem State.updPort_warps (k : Nat) (f : Port → Port) : (s.updPort k f).warps = s.warps := rfl
@[simp] theorem State.updPort_gangs (k : Nat) (f : Port → Port) : (s.updPort k f).gangs = s.gangs := rfl
@[simp] theorem State.updPort_launches (k : Nat) (f : Port → Port) : (s.updPort k f).launches = s.launches := rfl
@[simp] theorem State.updPort_ctxs (k : Nat) (f : Port → Port) : (s.updPort k f).ctxs = s.ctxs := rfl
@[simp] theorem State.updPort_parts (k : Nat) (f : Port → Port) : (s.updPort k f).parts = s.parts := rfl
@[simp] theorem State.updPort_quads (k : Nat) (f : Port → Port) : (s.updPort k f).quads = s.quads := rfl
@[simp] theorem State.updPort_clusters (k : Nat) (f : Port → Port) : (s.updPort k f).clusters = s.clusters := rfl
@[simp] theorem State.updPort_mem (k : Nat) (f : Port → Port) : (s.updPort k f).mem = s.mem := rfl
@[simp] theorem State.updPort_pats (k : Nat) (f : Port → Port) : (s.updPort k f).pats = s.pats := rfl
@[simp] theorem State.updPort_outbox (k : Nat) (f : Port → Port) : (s.updPort k f).outbox = s.outbox := rfl
@[simp] theorem State.updPort_unitQ (k : Nat) (f : Port → Port) : (s.updPort k f).unitQ = s.unitQ := rfl
@[simp] theorem State.updPort_heaps (k : Nat) (f : Port → Port) : (s.updPort k f).heaps = s.heaps := rfl
@[simp] theorem State.updPort_heapQ (k : Nat) (f : Port → Port) : (s.updPort k f).heapQ = s.heapQ := rfl
@[simp] theorem State.updPort_tlb (k : Nat) (f : Port → Port) : (s.updPort k f).tlb = s.tlb := rfl
@[simp] theorem State.updPort_walks (k : Nat) (f : Port → Port) : (s.updPort k f).walks = s.walks := rfl
@[simp] theorem State.updPort_jobs (k : Nat) (f : Port → Port) : (s.updPort k f).jobs = s.jobs := rfl
@[simp] theorem State.updPort_placed (k : Nat) (f : Port → Port) : (s.updPort k f).placed = s.placed := rfl
@[simp] theorem State.updPort_fns (k : Nat) (f : Port → Port) : (s.updPort k f).fns = s.fns := rfl
@[simp] theorem State.updPort_links (k : Nat) (f : Port → Port) : (s.updPort k f).links = s.links := rfl
@[simp] theorem State.updPort_mc (k : Nat) (f : Port → Port) : (s.updPort k f).mc = s.mc := rfl
@[simp] theorem State.updPort_lines (k : Nat) (f : Port → Port) : (s.updPort k f).lines = s.lines := rfl
@[simp] theorem State.updPort_poisonLine (k : Nat) (f : Port → Port) : (s.updPort k f).poisonLine = s.poisonLine := rfl
@[simp] theorem State.updPort_poisonUnit (k : Nat) (f : Port → Port) : (s.updPort k f).poisonUnit = s.poisonUnit := rfl
@[simp] theorem State.updPort_owners (k : Nat) (f : Port → Port) : (s.updPort k f).owners = s.owners := rfl
@[simp] theorem State.updPort_portOps (k : Nat) (f : Port → Port) : (s.updPort k f).portOps = s.portOps := rfl
@[simp] theorem State.updPort_heldStores (k : Nat) (f : Port → Port) : (s.updPort k f).heldStores = s.heldStores := rfl
@[simp] theorem State.updPort_holds (k : Nat) (f : Port → Port) : (s.updPort k f).holds = s.holds := rfl
@[simp] theorem State.updPort_debts (k : Nat) (f : Port → Port) : (s.updPort k f).debts = s.debts := rfl
@[simp] theorem State.updPort_acks (k : Nat) (f : Port → Port) : (s.updPort k f).acks = s.acks := rfl
@[simp] theorem State.updPort_hostStores (k : Nat) (f : Port → Port) : (s.updPort k f).hostStores = s.hostStores := rfl
@[simp] theorem State.updPort_copies (k : Nat) (f : Port → Port) : (s.updPort k f).copies = s.copies := rfl
@[simp] theorem State.updPort_colls (k : Nat) (f : Port → Port) : (s.updPort k f).colls = s.colls := rfl
@[simp] theorem State.updPort_sends (k : Nat) (f : Port → Port) : (s.updPort k f).sends = s.sends := rfl
@[simp] theorem State.updPort_ens (k : Nat) (f : Port → Port) : (s.updPort k f).ens = s.ens := rfl
@[simp] theorem State.updPort_unreach (k : Nat) (f : Port → Port) : (s.updPort k f).unreach = s.unreach := rfl
@[simp] theorem State.updPort_hostAtomics (k : Nat) (f : Port → Port) : (s.updPort k f).hostAtomics = s.hostAtomics := rfl
@[simp] theorem State.updPort_remoteFlags (k : Nat) (f : Port → Port) : (s.updPort k f).remoteFlags = s.remoteFlags := rfl
@[simp] theorem State.updPort_history (k : Nat) (f : Port → Port) : (s.updPort k f).history = s.history := rfl
@[simp] theorem State.updPort_logs (k : Nat) (f : Port → Port) : (s.updPort k f).logs = s.logs := rfl
@[simp] theorem State.updPort_clock (k : Nat) (f : Port → Port) : (s.updPort k f).clock = s.clock := rfl
@[simp] theorem State.updPort_phc (k : Nat) (f : Port → Port) : (s.updPort k f).phc = s.phc := rfl
@[simp] theorem State.updPort_nextUid (k : Nat) (f : Port → Port) : (s.updPort k f).nextUid = s.nextUid := rfl
@[simp] theorem State.updPort_actor (k : Nat) (f : Port → Port) : (s.updPort k f).actor = s.actor := rfl
@[simp] theorem State.updPort_inputs (k : Nat) (f : Port → Port) : (s.updPort k f).inputs = s.inputs := rfl
@[simp] theorem State.updPort_nextTurn (k : Nat) (f : Port → Port) : (s.updPort k f).nextTurn = s.nextTurn := rfl
@[simp] theorem State.updPort_sched (k : Nat) (f : Port → Port) : (s.updPort k f).sched = s.sched := rfl
@[simp] theorem State.updPort_placings (k : Nat) (f : Port → Port) : (s.updPort k f).placings = s.placings := rfl
@[simp] theorem State.updPort_engine (k : Nat) (f : Port → Port) : (s.updPort k f).engine = s.engine := rfl
@[simp] theorem State.updPort_drawn (k : Nat) (f : Port → Port) : (s.updPort k f).drawn = s.drawn := rfl
@[simp] theorem State.updPort_caps (k : Nat) (f : Port → Port) : (s.updPort k f).caps = s.caps := rfl
@[simp] theorem State.updPort_turns (k : Nat) (f : Port → Port) : (s.updPort k f).turns = s.turns := rfl

@[simp] theorem State.updPat_powered (k : Nat) (f : Pattern → Pattern) : (s.updPat k f).powered = s.powered := rfl
@[simp] theorem State.updPat_warps (k : Nat) (f : Pattern → Pattern) : (s.updPat k f).warps = s.warps := rfl
@[simp] theorem State.updPat_gangs (k : Nat) (f : Pattern → Pattern) : (s.updPat k f).gangs = s.gangs := rfl
@[simp] theorem State.updPat_launches (k : Nat) (f : Pattern → Pattern) : (s.updPat k f).launches = s.launches := rfl
@[simp] theorem State.updPat_ctxs (k : Nat) (f : Pattern → Pattern) : (s.updPat k f).ctxs = s.ctxs := rfl
@[simp] theorem State.updPat_parts (k : Nat) (f : Pattern → Pattern) : (s.updPat k f).parts = s.parts := rfl
@[simp] theorem State.updPat_quads (k : Nat) (f : Pattern → Pattern) : (s.updPat k f).quads = s.quads := rfl
@[simp] theorem State.updPat_clusters (k : Nat) (f : Pattern → Pattern) : (s.updPat k f).clusters = s.clusters := rfl
@[simp] theorem State.updPat_mem (k : Nat) (f : Pattern → Pattern) : (s.updPat k f).mem = s.mem := rfl
@[simp] theorem State.updPat_ports (k : Nat) (f : Pattern → Pattern) : (s.updPat k f).ports = s.ports := rfl
@[simp] theorem State.updPat_outbox (k : Nat) (f : Pattern → Pattern) : (s.updPat k f).outbox = s.outbox := rfl
@[simp] theorem State.updPat_unitQ (k : Nat) (f : Pattern → Pattern) : (s.updPat k f).unitQ = s.unitQ := rfl
@[simp] theorem State.updPat_heaps (k : Nat) (f : Pattern → Pattern) : (s.updPat k f).heaps = s.heaps := rfl
@[simp] theorem State.updPat_heapQ (k : Nat) (f : Pattern → Pattern) : (s.updPat k f).heapQ = s.heapQ := rfl
@[simp] theorem State.updPat_tlb (k : Nat) (f : Pattern → Pattern) : (s.updPat k f).tlb = s.tlb := rfl
@[simp] theorem State.updPat_walks (k : Nat) (f : Pattern → Pattern) : (s.updPat k f).walks = s.walks := rfl
@[simp] theorem State.updPat_jobs (k : Nat) (f : Pattern → Pattern) : (s.updPat k f).jobs = s.jobs := rfl
@[simp] theorem State.updPat_placed (k : Nat) (f : Pattern → Pattern) : (s.updPat k f).placed = s.placed := rfl
@[simp] theorem State.updPat_fns (k : Nat) (f : Pattern → Pattern) : (s.updPat k f).fns = s.fns := rfl
@[simp] theorem State.updPat_links (k : Nat) (f : Pattern → Pattern) : (s.updPat k f).links = s.links := rfl
@[simp] theorem State.updPat_mc (k : Nat) (f : Pattern → Pattern) : (s.updPat k f).mc = s.mc := rfl
@[simp] theorem State.updPat_lines (k : Nat) (f : Pattern → Pattern) : (s.updPat k f).lines = s.lines := rfl
@[simp] theorem State.updPat_poisonLine (k : Nat) (f : Pattern → Pattern) : (s.updPat k f).poisonLine = s.poisonLine := rfl
@[simp] theorem State.updPat_poisonUnit (k : Nat) (f : Pattern → Pattern) : (s.updPat k f).poisonUnit = s.poisonUnit := rfl
@[simp] theorem State.updPat_owners (k : Nat) (f : Pattern → Pattern) : (s.updPat k f).owners = s.owners := rfl
@[simp] theorem State.updPat_portOps (k : Nat) (f : Pattern → Pattern) : (s.updPat k f).portOps = s.portOps := rfl
@[simp] theorem State.updPat_heldStores (k : Nat) (f : Pattern → Pattern) : (s.updPat k f).heldStores = s.heldStores := rfl
@[simp] theorem State.updPat_holds (k : Nat) (f : Pattern → Pattern) : (s.updPat k f).holds = s.holds := rfl
@[simp] theorem State.updPat_debts (k : Nat) (f : Pattern → Pattern) : (s.updPat k f).debts = s.debts := rfl
@[simp] theorem State.updPat_acks (k : Nat) (f : Pattern → Pattern) : (s.updPat k f).acks = s.acks := rfl
@[simp] theorem State.updPat_hostStores (k : Nat) (f : Pattern → Pattern) : (s.updPat k f).hostStores = s.hostStores := rfl
@[simp] theorem State.updPat_copies (k : Nat) (f : Pattern → Pattern) : (s.updPat k f).copies = s.copies := rfl
@[simp] theorem State.updPat_colls (k : Nat) (f : Pattern → Pattern) : (s.updPat k f).colls = s.colls := rfl
@[simp] theorem State.updPat_sends (k : Nat) (f : Pattern → Pattern) : (s.updPat k f).sends = s.sends := rfl
@[simp] theorem State.updPat_ens (k : Nat) (f : Pattern → Pattern) : (s.updPat k f).ens = s.ens := rfl
@[simp] theorem State.updPat_unreach (k : Nat) (f : Pattern → Pattern) : (s.updPat k f).unreach = s.unreach := rfl
@[simp] theorem State.updPat_hostAtomics (k : Nat) (f : Pattern → Pattern) : (s.updPat k f).hostAtomics = s.hostAtomics := rfl
@[simp] theorem State.updPat_remoteFlags (k : Nat) (f : Pattern → Pattern) : (s.updPat k f).remoteFlags = s.remoteFlags := rfl
@[simp] theorem State.updPat_history (k : Nat) (f : Pattern → Pattern) : (s.updPat k f).history = s.history := rfl
@[simp] theorem State.updPat_logs (k : Nat) (f : Pattern → Pattern) : (s.updPat k f).logs = s.logs := rfl
@[simp] theorem State.updPat_clock (k : Nat) (f : Pattern → Pattern) : (s.updPat k f).clock = s.clock := rfl
@[simp] theorem State.updPat_phc (k : Nat) (f : Pattern → Pattern) : (s.updPat k f).phc = s.phc := rfl
@[simp] theorem State.updPat_nextUid (k : Nat) (f : Pattern → Pattern) : (s.updPat k f).nextUid = s.nextUid := rfl
@[simp] theorem State.updPat_actor (k : Nat) (f : Pattern → Pattern) : (s.updPat k f).actor = s.actor := rfl
@[simp] theorem State.updPat_inputs (k : Nat) (f : Pattern → Pattern) : (s.updPat k f).inputs = s.inputs := rfl
@[simp] theorem State.updPat_nextTurn (k : Nat) (f : Pattern → Pattern) : (s.updPat k f).nextTurn = s.nextTurn := rfl
@[simp] theorem State.updPat_sched (k : Nat) (f : Pattern → Pattern) : (s.updPat k f).sched = s.sched := rfl
@[simp] theorem State.updPat_placings (k : Nat) (f : Pattern → Pattern) : (s.updPat k f).placings = s.placings := rfl
@[simp] theorem State.updPat_engine (k : Nat) (f : Pattern → Pattern) : (s.updPat k f).engine = s.engine := rfl
@[simp] theorem State.updPat_drawn (k : Nat) (f : Pattern → Pattern) : (s.updPat k f).drawn = s.drawn := rfl
@[simp] theorem State.updPat_caps (k : Nat) (f : Pattern → Pattern) : (s.updPat k f).caps = s.caps := rfl
@[simp] theorem State.updPat_turns (k : Nat) (f : Pattern → Pattern) : (s.updPat k f).turns = s.turns := rfl

@[simp] theorem State.setByte_powered (a : Nat) (b : Byte) : (s.setByte a b).powered = s.powered := rfl
@[simp] theorem State.setByte_warps (a : Nat) (b : Byte) : (s.setByte a b).warps = s.warps := rfl
@[simp] theorem State.setByte_gangs (a : Nat) (b : Byte) : (s.setByte a b).gangs = s.gangs := rfl
@[simp] theorem State.setByte_launches (a : Nat) (b : Byte) : (s.setByte a b).launches = s.launches := rfl
@[simp] theorem State.setByte_ctxs (a : Nat) (b : Byte) : (s.setByte a b).ctxs = s.ctxs := rfl
@[simp] theorem State.setByte_parts (a : Nat) (b : Byte) : (s.setByte a b).parts = s.parts := rfl
@[simp] theorem State.setByte_quads (a : Nat) (b : Byte) : (s.setByte a b).quads = s.quads := rfl
@[simp] theorem State.setByte_clusters (a : Nat) (b : Byte) : (s.setByte a b).clusters = s.clusters := rfl
@[simp] theorem State.setByte_ports (a : Nat) (b : Byte) : (s.setByte a b).ports = s.ports := rfl
@[simp] theorem State.setByte_pats (a : Nat) (b : Byte) : (s.setByte a b).pats = s.pats := rfl
@[simp] theorem State.setByte_outbox (a : Nat) (b : Byte) : (s.setByte a b).outbox = s.outbox := rfl
@[simp] theorem State.setByte_unitQ (a : Nat) (b : Byte) : (s.setByte a b).unitQ = s.unitQ := rfl
@[simp] theorem State.setByte_heaps (a : Nat) (b : Byte) : (s.setByte a b).heaps = s.heaps := rfl
@[simp] theorem State.setByte_heapQ (a : Nat) (b : Byte) : (s.setByte a b).heapQ = s.heapQ := rfl
@[simp] theorem State.setByte_tlb (a : Nat) (b : Byte) : (s.setByte a b).tlb = s.tlb := rfl
@[simp] theorem State.setByte_walks (a : Nat) (b : Byte) : (s.setByte a b).walks = s.walks := rfl
@[simp] theorem State.setByte_jobs (a : Nat) (b : Byte) : (s.setByte a b).jobs = s.jobs := rfl
@[simp] theorem State.setByte_placed (a : Nat) (b : Byte) : (s.setByte a b).placed = s.placed := rfl
@[simp] theorem State.setByte_fns (a : Nat) (b : Byte) : (s.setByte a b).fns = s.fns := rfl
@[simp] theorem State.setByte_links (a : Nat) (b : Byte) : (s.setByte a b).links = s.links := rfl
@[simp] theorem State.setByte_mc (a : Nat) (b : Byte) : (s.setByte a b).mc = s.mc := rfl
@[simp] theorem State.setByte_lines (a : Nat) (b : Byte) : (s.setByte a b).lines = s.lines := rfl
@[simp] theorem State.setByte_poisonLine (a : Nat) (b : Byte) : (s.setByte a b).poisonLine = s.poisonLine := rfl
@[simp] theorem State.setByte_poisonUnit (a : Nat) (b : Byte) : (s.setByte a b).poisonUnit = s.poisonUnit := rfl
@[simp] theorem State.setByte_owners (a : Nat) (b : Byte) : (s.setByte a b).owners = s.owners := rfl
@[simp] theorem State.setByte_portOps (a : Nat) (b : Byte) : (s.setByte a b).portOps = s.portOps := rfl
@[simp] theorem State.setByte_heldStores (a : Nat) (b : Byte) : (s.setByte a b).heldStores = s.heldStores := rfl
@[simp] theorem State.setByte_holds (a : Nat) (b : Byte) : (s.setByte a b).holds = s.holds := rfl
@[simp] theorem State.setByte_debts (a : Nat) (b : Byte) : (s.setByte a b).debts = s.debts := rfl
@[simp] theorem State.setByte_acks (a : Nat) (b : Byte) : (s.setByte a b).acks = s.acks := rfl
@[simp] theorem State.setByte_hostStores (a : Nat) (b : Byte) : (s.setByte a b).hostStores = s.hostStores := rfl
@[simp] theorem State.setByte_copies (a : Nat) (b : Byte) : (s.setByte a b).copies = s.copies := rfl
@[simp] theorem State.setByte_colls (a : Nat) (b : Byte) : (s.setByte a b).colls = s.colls := rfl
@[simp] theorem State.setByte_sends (a : Nat) (b : Byte) : (s.setByte a b).sends = s.sends := rfl
@[simp] theorem State.setByte_ens (a : Nat) (b : Byte) : (s.setByte a b).ens = s.ens := rfl
@[simp] theorem State.setByte_unreach (a : Nat) (b : Byte) : (s.setByte a b).unreach = s.unreach := rfl
@[simp] theorem State.setByte_hostAtomics (a : Nat) (b : Byte) : (s.setByte a b).hostAtomics = s.hostAtomics := rfl
@[simp] theorem State.setByte_remoteFlags (a : Nat) (b : Byte) : (s.setByte a b).remoteFlags = s.remoteFlags := rfl
@[simp] theorem State.setByte_history (a : Nat) (b : Byte) : (s.setByte a b).history = s.history := rfl
@[simp] theorem State.setByte_logs (a : Nat) (b : Byte) : (s.setByte a b).logs = s.logs := rfl
@[simp] theorem State.setByte_clock (a : Nat) (b : Byte) : (s.setByte a b).clock = s.clock := rfl
@[simp] theorem State.setByte_phc (a : Nat) (b : Byte) : (s.setByte a b).phc = s.phc := rfl
@[simp] theorem State.setByte_nextUid (a : Nat) (b : Byte) : (s.setByte a b).nextUid = s.nextUid := rfl
@[simp] theorem State.setByte_actor (a : Nat) (b : Byte) : (s.setByte a b).actor = s.actor := rfl
@[simp] theorem State.setByte_inputs (a : Nat) (b : Byte) : (s.setByte a b).inputs = s.inputs := rfl
@[simp] theorem State.setByte_nextTurn (a : Nat) (b : Byte) : (s.setByte a b).nextTurn = s.nextTurn := rfl
@[simp] theorem State.setByte_sched (a : Nat) (b : Byte) : (s.setByte a b).sched = s.sched := rfl
@[simp] theorem State.setByte_placings (a : Nat) (b : Byte) : (s.setByte a b).placings = s.placings := rfl
@[simp] theorem State.setByte_engine (a : Nat) (b : Byte) : (s.setByte a b).engine = s.engine := rfl
@[simp] theorem State.setByte_drawn (a : Nat) (b : Byte) : (s.setByte a b).drawn = s.drawn := rfl
@[simp] theorem State.setByte_caps (a : Nat) (b : Byte) : (s.setByte a b).caps = s.caps := rfl
@[simp] theorem State.setByte_turns (a : Nat) (b : Byte) : (s.setByte a b).turns = s.turns := rfl

@[simp] theorem State.updWarp_powered (u : Nat) (f : Warp → Warp) : (s.updWarp u f).powered = s.powered := rfl
@[simp] theorem State.updWarp_gangs (u : Nat) (f : Warp → Warp) : (s.updWarp u f).gangs = s.gangs := rfl
@[simp] theorem State.updWarp_launches (u : Nat) (f : Warp → Warp) : (s.updWarp u f).launches = s.launches := rfl
@[simp] theorem State.updWarp_ctxs (u : Nat) (f : Warp → Warp) : (s.updWarp u f).ctxs = s.ctxs := rfl
@[simp] theorem State.updWarp_parts (u : Nat) (f : Warp → Warp) : (s.updWarp u f).parts = s.parts := rfl
@[simp] theorem State.updWarp_quads (u : Nat) (f : Warp → Warp) : (s.updWarp u f).quads = s.quads := rfl
@[simp] theorem State.updWarp_clusters (u : Nat) (f : Warp → Warp) : (s.updWarp u f).clusters = s.clusters := rfl
@[simp] theorem State.updWarp_mem (u : Nat) (f : Warp → Warp) : (s.updWarp u f).mem = s.mem := rfl
@[simp] theorem State.updWarp_ports (u : Nat) (f : Warp → Warp) : (s.updWarp u f).ports = s.ports := rfl
@[simp] theorem State.updWarp_pats (u : Nat) (f : Warp → Warp) : (s.updWarp u f).pats = s.pats := rfl
@[simp] theorem State.updWarp_outbox (u : Nat) (f : Warp → Warp) : (s.updWarp u f).outbox = s.outbox := rfl
@[simp] theorem State.updWarp_unitQ (u : Nat) (f : Warp → Warp) : (s.updWarp u f).unitQ = s.unitQ := rfl
@[simp] theorem State.updWarp_heaps (u : Nat) (f : Warp → Warp) : (s.updWarp u f).heaps = s.heaps := rfl
@[simp] theorem State.updWarp_heapQ (u : Nat) (f : Warp → Warp) : (s.updWarp u f).heapQ = s.heapQ := rfl
@[simp] theorem State.updWarp_tlb (u : Nat) (f : Warp → Warp) : (s.updWarp u f).tlb = s.tlb := rfl
@[simp] theorem State.updWarp_walks (u : Nat) (f : Warp → Warp) : (s.updWarp u f).walks = s.walks := rfl
@[simp] theorem State.updWarp_jobs (u : Nat) (f : Warp → Warp) : (s.updWarp u f).jobs = s.jobs := rfl
@[simp] theorem State.updWarp_placed (u : Nat) (f : Warp → Warp) : (s.updWarp u f).placed = s.placed := rfl
@[simp] theorem State.updWarp_fns (u : Nat) (f : Warp → Warp) : (s.updWarp u f).fns = s.fns := rfl
@[simp] theorem State.updWarp_links (u : Nat) (f : Warp → Warp) : (s.updWarp u f).links = s.links := rfl
@[simp] theorem State.updWarp_mc (u : Nat) (f : Warp → Warp) : (s.updWarp u f).mc = s.mc := rfl
@[simp] theorem State.updWarp_lines (u : Nat) (f : Warp → Warp) : (s.updWarp u f).lines = s.lines := rfl
@[simp] theorem State.updWarp_poisonLine (u : Nat) (f : Warp → Warp) : (s.updWarp u f).poisonLine = s.poisonLine := rfl
@[simp] theorem State.updWarp_poisonUnit (u : Nat) (f : Warp → Warp) : (s.updWarp u f).poisonUnit = s.poisonUnit := rfl
@[simp] theorem State.updWarp_owners (u : Nat) (f : Warp → Warp) : (s.updWarp u f).owners = s.owners := rfl
@[simp] theorem State.updWarp_portOps (u : Nat) (f : Warp → Warp) : (s.updWarp u f).portOps = s.portOps := rfl
@[simp] theorem State.updWarp_heldStores (u : Nat) (f : Warp → Warp) : (s.updWarp u f).heldStores = s.heldStores := rfl
@[simp] theorem State.updWarp_holds (u : Nat) (f : Warp → Warp) : (s.updWarp u f).holds = s.holds := rfl
@[simp] theorem State.updWarp_debts (u : Nat) (f : Warp → Warp) : (s.updWarp u f).debts = s.debts := rfl
@[simp] theorem State.updWarp_acks (u : Nat) (f : Warp → Warp) : (s.updWarp u f).acks = s.acks := rfl
@[simp] theorem State.updWarp_hostStores (u : Nat) (f : Warp → Warp) : (s.updWarp u f).hostStores = s.hostStores := rfl
@[simp] theorem State.updWarp_copies (u : Nat) (f : Warp → Warp) : (s.updWarp u f).copies = s.copies := rfl
@[simp] theorem State.updWarp_colls (u : Nat) (f : Warp → Warp) : (s.updWarp u f).colls = s.colls := rfl
@[simp] theorem State.updWarp_sends (u : Nat) (f : Warp → Warp) : (s.updWarp u f).sends = s.sends := rfl
@[simp] theorem State.updWarp_ens (u : Nat) (f : Warp → Warp) : (s.updWarp u f).ens = s.ens := rfl
@[simp] theorem State.updWarp_unreach (u : Nat) (f : Warp → Warp) : (s.updWarp u f).unreach = s.unreach := rfl
@[simp] theorem State.updWarp_hostAtomics (u : Nat) (f : Warp → Warp) : (s.updWarp u f).hostAtomics = s.hostAtomics := rfl
@[simp] theorem State.updWarp_remoteFlags (u : Nat) (f : Warp → Warp) : (s.updWarp u f).remoteFlags = s.remoteFlags := rfl
@[simp] theorem State.updWarp_history (u : Nat) (f : Warp → Warp) : (s.updWarp u f).history = s.history := rfl
@[simp] theorem State.updWarp_logs (u : Nat) (f : Warp → Warp) : (s.updWarp u f).logs = s.logs := rfl
@[simp] theorem State.updWarp_clock (u : Nat) (f : Warp → Warp) : (s.updWarp u f).clock = s.clock := rfl
@[simp] theorem State.updWarp_phc (u : Nat) (f : Warp → Warp) : (s.updWarp u f).phc = s.phc := rfl
@[simp] theorem State.updWarp_nextUid (u : Nat) (f : Warp → Warp) : (s.updWarp u f).nextUid = s.nextUid := rfl
@[simp] theorem State.updWarp_actor (u : Nat) (f : Warp → Warp) : (s.updWarp u f).actor = s.actor := rfl
@[simp] theorem State.updWarp_inputs (u : Nat) (f : Warp → Warp) : (s.updWarp u f).inputs = s.inputs := rfl
@[simp] theorem State.updWarp_nextTurn (u : Nat) (f : Warp → Warp) : (s.updWarp u f).nextTurn = s.nextTurn := rfl
@[simp] theorem State.updWarp_sched (u : Nat) (f : Warp → Warp) : (s.updWarp u f).sched = s.sched := rfl
@[simp] theorem State.updWarp_placings (u : Nat) (f : Warp → Warp) : (s.updWarp u f).placings = s.placings := rfl
@[simp] theorem State.updWarp_engine (u : Nat) (f : Warp → Warp) : (s.updWarp u f).engine = s.engine := rfl
@[simp] theorem State.updWarp_drawn (u : Nat) (f : Warp → Warp) : (s.updWarp u f).drawn = s.drawn := rfl
@[simp] theorem State.updWarp_caps (u : Nat) (f : Warp → Warp) : (s.updWarp u f).caps = s.caps := rfl
@[simp] theorem State.updWarp_turns (u : Nat) (f : Warp → Warp) : (s.updWarp u f).turns = s.turns := rfl

@[simp] theorem State.setMe_powered (w : Warp) : (s.setMe w).powered = s.powered := rfl
@[simp] theorem State.setMe_gangs (w : Warp) : (s.setMe w).gangs = s.gangs := rfl
@[simp] theorem State.setMe_launches (w : Warp) : (s.setMe w).launches = s.launches := rfl
@[simp] theorem State.setMe_ctxs (w : Warp) : (s.setMe w).ctxs = s.ctxs := rfl
@[simp] theorem State.setMe_parts (w : Warp) : (s.setMe w).parts = s.parts := rfl
@[simp] theorem State.setMe_quads (w : Warp) : (s.setMe w).quads = s.quads := rfl
@[simp] theorem State.setMe_clusters (w : Warp) : (s.setMe w).clusters = s.clusters := rfl
@[simp] theorem State.setMe_mem (w : Warp) : (s.setMe w).mem = s.mem := rfl
@[simp] theorem State.setMe_ports (w : Warp) : (s.setMe w).ports = s.ports := rfl
@[simp] theorem State.setMe_pats (w : Warp) : (s.setMe w).pats = s.pats := rfl
@[simp] theorem State.setMe_outbox (w : Warp) : (s.setMe w).outbox = s.outbox := rfl
@[simp] theorem State.setMe_unitQ (w : Warp) : (s.setMe w).unitQ = s.unitQ := rfl
@[simp] theorem State.setMe_heaps (w : Warp) : (s.setMe w).heaps = s.heaps := rfl
@[simp] theorem State.setMe_heapQ (w : Warp) : (s.setMe w).heapQ = s.heapQ := rfl
@[simp] theorem State.setMe_tlb (w : Warp) : (s.setMe w).tlb = s.tlb := rfl
@[simp] theorem State.setMe_walks (w : Warp) : (s.setMe w).walks = s.walks := rfl
@[simp] theorem State.setMe_jobs (w : Warp) : (s.setMe w).jobs = s.jobs := rfl
@[simp] theorem State.setMe_placed (w : Warp) : (s.setMe w).placed = s.placed := rfl
@[simp] theorem State.setMe_fns (w : Warp) : (s.setMe w).fns = s.fns := rfl
@[simp] theorem State.setMe_links (w : Warp) : (s.setMe w).links = s.links := rfl
@[simp] theorem State.setMe_mc (w : Warp) : (s.setMe w).mc = s.mc := rfl
@[simp] theorem State.setMe_lines (w : Warp) : (s.setMe w).lines = s.lines := rfl
@[simp] theorem State.setMe_poisonLine (w : Warp) : (s.setMe w).poisonLine = s.poisonLine := rfl
@[simp] theorem State.setMe_poisonUnit (w : Warp) : (s.setMe w).poisonUnit = s.poisonUnit := rfl
@[simp] theorem State.setMe_owners (w : Warp) : (s.setMe w).owners = s.owners := rfl
@[simp] theorem State.setMe_portOps (w : Warp) : (s.setMe w).portOps = s.portOps := rfl
@[simp] theorem State.setMe_heldStores (w : Warp) : (s.setMe w).heldStores = s.heldStores := rfl
@[simp] theorem State.setMe_holds (w : Warp) : (s.setMe w).holds = s.holds := rfl
@[simp] theorem State.setMe_debts (w : Warp) : (s.setMe w).debts = s.debts := rfl
@[simp] theorem State.setMe_acks (w : Warp) : (s.setMe w).acks = s.acks := rfl
@[simp] theorem State.setMe_hostStores (w : Warp) : (s.setMe w).hostStores = s.hostStores := rfl
@[simp] theorem State.setMe_copies (w : Warp) : (s.setMe w).copies = s.copies := rfl
@[simp] theorem State.setMe_colls (w : Warp) : (s.setMe w).colls = s.colls := rfl
@[simp] theorem State.setMe_sends (w : Warp) : (s.setMe w).sends = s.sends := rfl
@[simp] theorem State.setMe_ens (w : Warp) : (s.setMe w).ens = s.ens := rfl
@[simp] theorem State.setMe_unreach (w : Warp) : (s.setMe w).unreach = s.unreach := rfl
@[simp] theorem State.setMe_hostAtomics (w : Warp) : (s.setMe w).hostAtomics = s.hostAtomics := rfl
@[simp] theorem State.setMe_remoteFlags (w : Warp) : (s.setMe w).remoteFlags = s.remoteFlags := rfl
@[simp] theorem State.setMe_history (w : Warp) : (s.setMe w).history = s.history := rfl
@[simp] theorem State.setMe_logs (w : Warp) : (s.setMe w).logs = s.logs := rfl
@[simp] theorem State.setMe_clock (w : Warp) : (s.setMe w).clock = s.clock := rfl
@[simp] theorem State.setMe_phc (w : Warp) : (s.setMe w).phc = s.phc := rfl
@[simp] theorem State.setMe_nextUid (w : Warp) : (s.setMe w).nextUid = s.nextUid := rfl
@[simp] theorem State.setMe_actor (w : Warp) : (s.setMe w).actor = s.actor := rfl
@[simp] theorem State.setMe_inputs (w : Warp) : (s.setMe w).inputs = s.inputs := rfl
@[simp] theorem State.setMe_nextTurn (w : Warp) : (s.setMe w).nextTurn = s.nextTurn := rfl
@[simp] theorem State.setMe_sched (w : Warp) : (s.setMe w).sched = s.sched := rfl
@[simp] theorem State.setMe_placings (w : Warp) : (s.setMe w).placings = s.placings := rfl
@[simp] theorem State.setMe_engine (w : Warp) : (s.setMe w).engine = s.engine := rfl
@[simp] theorem State.setMe_drawn (w : Warp) : (s.setMe w).drawn = s.drawn := rfl
@[simp] theorem State.setMe_caps (w : Warp) : (s.setMe w).caps = s.caps := rfl
@[simp] theorem State.setMe_turns (w : Warp) : (s.setMe w).turns = s.turns := rfl

@[simp] theorem State.updMe_powered (f : Warp → Warp) : (s.updMe f).powered = s.powered := rfl
@[simp] theorem State.updMe_gangs (f : Warp → Warp) : (s.updMe f).gangs = s.gangs := rfl
@[simp] theorem State.updMe_launches (f : Warp → Warp) : (s.updMe f).launches = s.launches := rfl
@[simp] theorem State.updMe_ctxs (f : Warp → Warp) : (s.updMe f).ctxs = s.ctxs := rfl
@[simp] theorem State.updMe_parts (f : Warp → Warp) : (s.updMe f).parts = s.parts := rfl
@[simp] theorem State.updMe_quads (f : Warp → Warp) : (s.updMe f).quads = s.quads := rfl
@[simp] theorem State.updMe_clusters (f : Warp → Warp) : (s.updMe f).clusters = s.clusters := rfl
@[simp] theorem State.updMe_mem (f : Warp → Warp) : (s.updMe f).mem = s.mem := rfl
@[simp] theorem State.updMe_ports (f : Warp → Warp) : (s.updMe f).ports = s.ports := rfl
@[simp] theorem State.updMe_pats (f : Warp → Warp) : (s.updMe f).pats = s.pats := rfl
@[simp] theorem State.updMe_outbox (f : Warp → Warp) : (s.updMe f).outbox = s.outbox := rfl
@[simp] theorem State.updMe_unitQ (f : Warp → Warp) : (s.updMe f).unitQ = s.unitQ := rfl
@[simp] theorem State.updMe_heaps (f : Warp → Warp) : (s.updMe f).heaps = s.heaps := rfl
@[simp] theorem State.updMe_heapQ (f : Warp → Warp) : (s.updMe f).heapQ = s.heapQ := rfl
@[simp] theorem State.updMe_tlb (f : Warp → Warp) : (s.updMe f).tlb = s.tlb := rfl
@[simp] theorem State.updMe_walks (f : Warp → Warp) : (s.updMe f).walks = s.walks := rfl
@[simp] theorem State.updMe_jobs (f : Warp → Warp) : (s.updMe f).jobs = s.jobs := rfl
@[simp] theorem State.updMe_placed (f : Warp → Warp) : (s.updMe f).placed = s.placed := rfl
@[simp] theorem State.updMe_fns (f : Warp → Warp) : (s.updMe f).fns = s.fns := rfl
@[simp] theorem State.updMe_links (f : Warp → Warp) : (s.updMe f).links = s.links := rfl
@[simp] theorem State.updMe_mc (f : Warp → Warp) : (s.updMe f).mc = s.mc := rfl
@[simp] theorem State.updMe_lines (f : Warp → Warp) : (s.updMe f).lines = s.lines := rfl
@[simp] theorem State.updMe_poisonLine (f : Warp → Warp) : (s.updMe f).poisonLine = s.poisonLine := rfl
@[simp] theorem State.updMe_poisonUnit (f : Warp → Warp) : (s.updMe f).poisonUnit = s.poisonUnit := rfl
@[simp] theorem State.updMe_owners (f : Warp → Warp) : (s.updMe f).owners = s.owners := rfl
@[simp] theorem State.updMe_portOps (f : Warp → Warp) : (s.updMe f).portOps = s.portOps := rfl
@[simp] theorem State.updMe_heldStores (f : Warp → Warp) : (s.updMe f).heldStores = s.heldStores := rfl
@[simp] theorem State.updMe_holds (f : Warp → Warp) : (s.updMe f).holds = s.holds := rfl
@[simp] theorem State.updMe_debts (f : Warp → Warp) : (s.updMe f).debts = s.debts := rfl
@[simp] theorem State.updMe_acks (f : Warp → Warp) : (s.updMe f).acks = s.acks := rfl
@[simp] theorem State.updMe_hostStores (f : Warp → Warp) : (s.updMe f).hostStores = s.hostStores := rfl
@[simp] theorem State.updMe_copies (f : Warp → Warp) : (s.updMe f).copies = s.copies := rfl
@[simp] theorem State.updMe_colls (f : Warp → Warp) : (s.updMe f).colls = s.colls := rfl
@[simp] theorem State.updMe_sends (f : Warp → Warp) : (s.updMe f).sends = s.sends := rfl
@[simp] theorem State.updMe_ens (f : Warp → Warp) : (s.updMe f).ens = s.ens := rfl
@[simp] theorem State.updMe_unreach (f : Warp → Warp) : (s.updMe f).unreach = s.unreach := rfl
@[simp] theorem State.updMe_hostAtomics (f : Warp → Warp) : (s.updMe f).hostAtomics = s.hostAtomics := rfl
@[simp] theorem State.updMe_remoteFlags (f : Warp → Warp) : (s.updMe f).remoteFlags = s.remoteFlags := rfl
@[simp] theorem State.updMe_history (f : Warp → Warp) : (s.updMe f).history = s.history := rfl
@[simp] theorem State.updMe_logs (f : Warp → Warp) : (s.updMe f).logs = s.logs := rfl
@[simp] theorem State.updMe_clock (f : Warp → Warp) : (s.updMe f).clock = s.clock := rfl
@[simp] theorem State.updMe_phc (f : Warp → Warp) : (s.updMe f).phc = s.phc := rfl
@[simp] theorem State.updMe_nextUid (f : Warp → Warp) : (s.updMe f).nextUid = s.nextUid := rfl
@[simp] theorem State.updMe_actor (f : Warp → Warp) : (s.updMe f).actor = s.actor := rfl
@[simp] theorem State.updMe_inputs (f : Warp → Warp) : (s.updMe f).inputs = s.inputs := rfl
@[simp] theorem State.updMe_nextTurn (f : Warp → Warp) : (s.updMe f).nextTurn = s.nextTurn := rfl
@[simp] theorem State.updMe_sched (f : Warp → Warp) : (s.updMe f).sched = s.sched := rfl
@[simp] theorem State.updMe_placings (f : Warp → Warp) : (s.updMe f).placings = s.placings := rfl
@[simp] theorem State.updMe_engine (f : Warp → Warp) : (s.updMe f).engine = s.engine := rfl
@[simp] theorem State.updMe_drawn (f : Warp → Warp) : (s.updMe f).drawn = s.drawn := rfl
@[simp] theorem State.updMe_caps (f : Warp → Warp) : (s.updMe f).caps = s.caps := rfl
@[simp] theorem State.updMe_turns (f : Warp → Warp) : (s.updMe f).turns = s.turns := rfl

@[simp] theorem State.updGang_powered (g : Nat) (f : Gang → Gang) : (s.updGang g f).powered = s.powered := rfl
@[simp] theorem State.updGang_warps (g : Nat) (f : Gang → Gang) : (s.updGang g f).warps = s.warps := rfl
@[simp] theorem State.updGang_launches (g : Nat) (f : Gang → Gang) : (s.updGang g f).launches = s.launches := rfl
@[simp] theorem State.updGang_ctxs (g : Nat) (f : Gang → Gang) : (s.updGang g f).ctxs = s.ctxs := rfl
@[simp] theorem State.updGang_parts (g : Nat) (f : Gang → Gang) : (s.updGang g f).parts = s.parts := rfl
@[simp] theorem State.updGang_quads (g : Nat) (f : Gang → Gang) : (s.updGang g f).quads = s.quads := rfl
@[simp] theorem State.updGang_clusters (g : Nat) (f : Gang → Gang) : (s.updGang g f).clusters = s.clusters := rfl
@[simp] theorem State.updGang_mem (g : Nat) (f : Gang → Gang) : (s.updGang g f).mem = s.mem := rfl
@[simp] theorem State.updGang_ports (g : Nat) (f : Gang → Gang) : (s.updGang g f).ports = s.ports := rfl
@[simp] theorem State.updGang_pats (g : Nat) (f : Gang → Gang) : (s.updGang g f).pats = s.pats := rfl
@[simp] theorem State.updGang_outbox (g : Nat) (f : Gang → Gang) : (s.updGang g f).outbox = s.outbox := rfl
@[simp] theorem State.updGang_unitQ (g : Nat) (f : Gang → Gang) : (s.updGang g f).unitQ = s.unitQ := rfl
@[simp] theorem State.updGang_heaps (g : Nat) (f : Gang → Gang) : (s.updGang g f).heaps = s.heaps := rfl
@[simp] theorem State.updGang_heapQ (g : Nat) (f : Gang → Gang) : (s.updGang g f).heapQ = s.heapQ := rfl
@[simp] theorem State.updGang_tlb (g : Nat) (f : Gang → Gang) : (s.updGang g f).tlb = s.tlb := rfl
@[simp] theorem State.updGang_walks (g : Nat) (f : Gang → Gang) : (s.updGang g f).walks = s.walks := rfl
@[simp] theorem State.updGang_jobs (g : Nat) (f : Gang → Gang) : (s.updGang g f).jobs = s.jobs := rfl
@[simp] theorem State.updGang_placed (g : Nat) (f : Gang → Gang) : (s.updGang g f).placed = s.placed := rfl
@[simp] theorem State.updGang_fns (g : Nat) (f : Gang → Gang) : (s.updGang g f).fns = s.fns := rfl
@[simp] theorem State.updGang_links (g : Nat) (f : Gang → Gang) : (s.updGang g f).links = s.links := rfl
@[simp] theorem State.updGang_mc (g : Nat) (f : Gang → Gang) : (s.updGang g f).mc = s.mc := rfl
@[simp] theorem State.updGang_lines (g : Nat) (f : Gang → Gang) : (s.updGang g f).lines = s.lines := rfl
@[simp] theorem State.updGang_poisonLine (g : Nat) (f : Gang → Gang) : (s.updGang g f).poisonLine = s.poisonLine := rfl
@[simp] theorem State.updGang_poisonUnit (g : Nat) (f : Gang → Gang) : (s.updGang g f).poisonUnit = s.poisonUnit := rfl
@[simp] theorem State.updGang_owners (g : Nat) (f : Gang → Gang) : (s.updGang g f).owners = s.owners := rfl
@[simp] theorem State.updGang_portOps (g : Nat) (f : Gang → Gang) : (s.updGang g f).portOps = s.portOps := rfl
@[simp] theorem State.updGang_heldStores (g : Nat) (f : Gang → Gang) : (s.updGang g f).heldStores = s.heldStores := rfl
@[simp] theorem State.updGang_holds (g : Nat) (f : Gang → Gang) : (s.updGang g f).holds = s.holds := rfl
@[simp] theorem State.updGang_debts (g : Nat) (f : Gang → Gang) : (s.updGang g f).debts = s.debts := rfl
@[simp] theorem State.updGang_acks (g : Nat) (f : Gang → Gang) : (s.updGang g f).acks = s.acks := rfl
@[simp] theorem State.updGang_hostStores (g : Nat) (f : Gang → Gang) : (s.updGang g f).hostStores = s.hostStores := rfl
@[simp] theorem State.updGang_copies (g : Nat) (f : Gang → Gang) : (s.updGang g f).copies = s.copies := rfl
@[simp] theorem State.updGang_colls (g : Nat) (f : Gang → Gang) : (s.updGang g f).colls = s.colls := rfl
@[simp] theorem State.updGang_sends (g : Nat) (f : Gang → Gang) : (s.updGang g f).sends = s.sends := rfl
@[simp] theorem State.updGang_ens (g : Nat) (f : Gang → Gang) : (s.updGang g f).ens = s.ens := rfl
@[simp] theorem State.updGang_unreach (g : Nat) (f : Gang → Gang) : (s.updGang g f).unreach = s.unreach := rfl
@[simp] theorem State.updGang_hostAtomics (g : Nat) (f : Gang → Gang) : (s.updGang g f).hostAtomics = s.hostAtomics := rfl
@[simp] theorem State.updGang_remoteFlags (g : Nat) (f : Gang → Gang) : (s.updGang g f).remoteFlags = s.remoteFlags := rfl
@[simp] theorem State.updGang_history (g : Nat) (f : Gang → Gang) : (s.updGang g f).history = s.history := rfl
@[simp] theorem State.updGang_logs (g : Nat) (f : Gang → Gang) : (s.updGang g f).logs = s.logs := rfl
@[simp] theorem State.updGang_clock (g : Nat) (f : Gang → Gang) : (s.updGang g f).clock = s.clock := rfl
@[simp] theorem State.updGang_phc (g : Nat) (f : Gang → Gang) : (s.updGang g f).phc = s.phc := rfl
@[simp] theorem State.updGang_nextUid (g : Nat) (f : Gang → Gang) : (s.updGang g f).nextUid = s.nextUid := rfl
@[simp] theorem State.updGang_actor (g : Nat) (f : Gang → Gang) : (s.updGang g f).actor = s.actor := rfl
@[simp] theorem State.updGang_inputs (g : Nat) (f : Gang → Gang) : (s.updGang g f).inputs = s.inputs := rfl
@[simp] theorem State.updGang_nextTurn (g : Nat) (f : Gang → Gang) : (s.updGang g f).nextTurn = s.nextTurn := rfl
@[simp] theorem State.updGang_sched (g : Nat) (f : Gang → Gang) : (s.updGang g f).sched = s.sched := rfl
@[simp] theorem State.updGang_placings (g : Nat) (f : Gang → Gang) : (s.updGang g f).placings = s.placings := rfl
@[simp] theorem State.updGang_engine (g : Nat) (f : Gang → Gang) : (s.updGang g f).engine = s.engine := rfl
@[simp] theorem State.updGang_drawn (g : Nat) (f : Gang → Gang) : (s.updGang g f).drawn = s.drawn := rfl
@[simp] theorem State.updGang_caps (g : Nat) (f : Gang → Gang) : (s.updGang g f).caps = s.caps := rfl
@[simp] theorem State.updGang_turns (g : Nat) (f : Gang → Gang) : (s.updGang g f).turns = s.turns := rfl

@[simp] theorem State.updBarrier_powered (g b : Nat) (f : Barrier → Barrier) : (s.updBarrier g b f).powered = s.powered := rfl
@[simp] theorem State.updBarrier_warps (g b : Nat) (f : Barrier → Barrier) : (s.updBarrier g b f).warps = s.warps := rfl
@[simp] theorem State.updBarrier_launches (g b : Nat) (f : Barrier → Barrier) : (s.updBarrier g b f).launches = s.launches := rfl
@[simp] theorem State.updBarrier_ctxs (g b : Nat) (f : Barrier → Barrier) : (s.updBarrier g b f).ctxs = s.ctxs := rfl
@[simp] theorem State.updBarrier_parts (g b : Nat) (f : Barrier → Barrier) : (s.updBarrier g b f).parts = s.parts := rfl
@[simp] theorem State.updBarrier_quads (g b : Nat) (f : Barrier → Barrier) : (s.updBarrier g b f).quads = s.quads := rfl
@[simp] theorem State.updBarrier_clusters (g b : Nat) (f : Barrier → Barrier) : (s.updBarrier g b f).clusters = s.clusters := rfl
@[simp] theorem State.updBarrier_mem (g b : Nat) (f : Barrier → Barrier) : (s.updBarrier g b f).mem = s.mem := rfl
@[simp] theorem State.updBarrier_ports (g b : Nat) (f : Barrier → Barrier) : (s.updBarrier g b f).ports = s.ports := rfl
@[simp] theorem State.updBarrier_pats (g b : Nat) (f : Barrier → Barrier) : (s.updBarrier g b f).pats = s.pats := rfl
@[simp] theorem State.updBarrier_outbox (g b : Nat) (f : Barrier → Barrier) : (s.updBarrier g b f).outbox = s.outbox := rfl
@[simp] theorem State.updBarrier_unitQ (g b : Nat) (f : Barrier → Barrier) : (s.updBarrier g b f).unitQ = s.unitQ := rfl
@[simp] theorem State.updBarrier_heaps (g b : Nat) (f : Barrier → Barrier) : (s.updBarrier g b f).heaps = s.heaps := rfl
@[simp] theorem State.updBarrier_heapQ (g b : Nat) (f : Barrier → Barrier) : (s.updBarrier g b f).heapQ = s.heapQ := rfl
@[simp] theorem State.updBarrier_tlb (g b : Nat) (f : Barrier → Barrier) : (s.updBarrier g b f).tlb = s.tlb := rfl
@[simp] theorem State.updBarrier_walks (g b : Nat) (f : Barrier → Barrier) : (s.updBarrier g b f).walks = s.walks := rfl
@[simp] theorem State.updBarrier_jobs (g b : Nat) (f : Barrier → Barrier) : (s.updBarrier g b f).jobs = s.jobs := rfl
@[simp] theorem State.updBarrier_placed (g b : Nat) (f : Barrier → Barrier) : (s.updBarrier g b f).placed = s.placed := rfl
@[simp] theorem State.updBarrier_fns (g b : Nat) (f : Barrier → Barrier) : (s.updBarrier g b f).fns = s.fns := rfl
@[simp] theorem State.updBarrier_links (g b : Nat) (f : Barrier → Barrier) : (s.updBarrier g b f).links = s.links := rfl
@[simp] theorem State.updBarrier_mc (g b : Nat) (f : Barrier → Barrier) : (s.updBarrier g b f).mc = s.mc := rfl
@[simp] theorem State.updBarrier_lines (g b : Nat) (f : Barrier → Barrier) : (s.updBarrier g b f).lines = s.lines := rfl
@[simp] theorem State.updBarrier_poisonLine (g b : Nat) (f : Barrier → Barrier) : (s.updBarrier g b f).poisonLine = s.poisonLine := rfl
@[simp] theorem State.updBarrier_poisonUnit (g b : Nat) (f : Barrier → Barrier) : (s.updBarrier g b f).poisonUnit = s.poisonUnit := rfl
@[simp] theorem State.updBarrier_owners (g b : Nat) (f : Barrier → Barrier) : (s.updBarrier g b f).owners = s.owners := rfl
@[simp] theorem State.updBarrier_portOps (g b : Nat) (f : Barrier → Barrier) : (s.updBarrier g b f).portOps = s.portOps := rfl
@[simp] theorem State.updBarrier_heldStores (g b : Nat) (f : Barrier → Barrier) : (s.updBarrier g b f).heldStores = s.heldStores := rfl
@[simp] theorem State.updBarrier_holds (g b : Nat) (f : Barrier → Barrier) : (s.updBarrier g b f).holds = s.holds := rfl
@[simp] theorem State.updBarrier_debts (g b : Nat) (f : Barrier → Barrier) : (s.updBarrier g b f).debts = s.debts := rfl
@[simp] theorem State.updBarrier_acks (g b : Nat) (f : Barrier → Barrier) : (s.updBarrier g b f).acks = s.acks := rfl
@[simp] theorem State.updBarrier_hostStores (g b : Nat) (f : Barrier → Barrier) : (s.updBarrier g b f).hostStores = s.hostStores := rfl
@[simp] theorem State.updBarrier_copies (g b : Nat) (f : Barrier → Barrier) : (s.updBarrier g b f).copies = s.copies := rfl
@[simp] theorem State.updBarrier_colls (g b : Nat) (f : Barrier → Barrier) : (s.updBarrier g b f).colls = s.colls := rfl
@[simp] theorem State.updBarrier_sends (g b : Nat) (f : Barrier → Barrier) : (s.updBarrier g b f).sends = s.sends := rfl
@[simp] theorem State.updBarrier_ens (g b : Nat) (f : Barrier → Barrier) : (s.updBarrier g b f).ens = s.ens := rfl
@[simp] theorem State.updBarrier_unreach (g b : Nat) (f : Barrier → Barrier) : (s.updBarrier g b f).unreach = s.unreach := rfl
@[simp] theorem State.updBarrier_hostAtomics (g b : Nat) (f : Barrier → Barrier) : (s.updBarrier g b f).hostAtomics = s.hostAtomics := rfl
@[simp] theorem State.updBarrier_remoteFlags (g b : Nat) (f : Barrier → Barrier) : (s.updBarrier g b f).remoteFlags = s.remoteFlags := rfl
@[simp] theorem State.updBarrier_history (g b : Nat) (f : Barrier → Barrier) : (s.updBarrier g b f).history = s.history := rfl
@[simp] theorem State.updBarrier_logs (g b : Nat) (f : Barrier → Barrier) : (s.updBarrier g b f).logs = s.logs := rfl
@[simp] theorem State.updBarrier_clock (g b : Nat) (f : Barrier → Barrier) : (s.updBarrier g b f).clock = s.clock := rfl
@[simp] theorem State.updBarrier_phc (g b : Nat) (f : Barrier → Barrier) : (s.updBarrier g b f).phc = s.phc := rfl
@[simp] theorem State.updBarrier_nextUid (g b : Nat) (f : Barrier → Barrier) : (s.updBarrier g b f).nextUid = s.nextUid := rfl
@[simp] theorem State.updBarrier_actor (g b : Nat) (f : Barrier → Barrier) : (s.updBarrier g b f).actor = s.actor := rfl
@[simp] theorem State.updBarrier_inputs (g b : Nat) (f : Barrier → Barrier) : (s.updBarrier g b f).inputs = s.inputs := rfl
@[simp] theorem State.updBarrier_nextTurn (g b : Nat) (f : Barrier → Barrier) : (s.updBarrier g b f).nextTurn = s.nextTurn := rfl
@[simp] theorem State.updBarrier_sched (g b : Nat) (f : Barrier → Barrier) : (s.updBarrier g b f).sched = s.sched := rfl
@[simp] theorem State.updBarrier_placings (g b : Nat) (f : Barrier → Barrier) : (s.updBarrier g b f).placings = s.placings := rfl
@[simp] theorem State.updBarrier_engine (g b : Nat) (f : Barrier → Barrier) : (s.updBarrier g b f).engine = s.engine := rfl
@[simp] theorem State.updBarrier_drawn (g b : Nat) (f : Barrier → Barrier) : (s.updBarrier g b f).drawn = s.drawn := rfl
@[simp] theorem State.updBarrier_caps (g b : Nat) (f : Barrier → Barrier) : (s.updBarrier g b f).caps = s.caps := rfl
@[simp] theorem State.updBarrier_turns (g b : Nat) (f : Barrier → Barrier) : (s.updBarrier g b f).turns = s.turns := rfl

/-! ### Reading what was written -/

@[simp] theorem State.warp_setWarp_self (u : Nat) (w : Warp) : (s.setWarp u w).warp u = w := Map.get_set_self _ _ _
theorem State.warp_setWarp_ne {u v : Nat} (w : Warp) (h : v ≠ u) : (s.setWarp u w).warp v = s.warp v := Map.get_set_ne _ _ h
@[simp] theorem State.warp_updWarp_self (u : Nat) (f : Warp → Warp) : (s.updWarp u f).warp u = f (s.warp u) := Map.get_set_self _ _ _
theorem State.warp_updWarp_ne {u v : Nat} (f : Warp → Warp) (h : v ≠ u) : (s.updWarp u f).warp v = s.warp v := Map.get_set_ne _ _ h
@[simp] theorem State.me_updMe (f : Warp → Warp) : (s.updMe f).me = f s.me := Map.get_set_self _ _ _
@[simp] theorem State.me_setMe (w : Warp) : (s.setMe w).me = w := Map.get_set_self _ _ _
@[simp] theorem State.gang_setGang_self (g : Nat) (x : Gang) : (s.setGang g x).gang g = x := Map.get_set_self _ _ _
theorem State.gang_setGang_ne {g k : Nat} (x : Gang) (h : k ≠ g) : (s.setGang g x).gang k = s.gang k := Map.get_set_ne _ _ h
@[simp] theorem State.gang_updGang_self (g : Nat) (f : Gang → Gang) : (s.updGang g f).gang g = f (s.gang g) := Map.get_set_self _ _ _
theorem State.gang_updGang_ne {g k : Nat} (f : Gang → Gang) (h : k ≠ g) : (s.updGang g f).gang k = s.gang k := Map.get_set_ne _ _ h
@[simp] theorem State.launch_updLaunch_self (n : Nat) (f : Launch → Launch) : (s.updLaunch n f).launch n = f (s.launch n) := Map.get_set_self _ _ _
theorem State.launch_updLaunch_ne {n k : Nat} (f : Launch → Launch) (h : k ≠ n) : (s.updLaunch n f).launch k = s.launch k := Map.get_set_ne _ _ h
@[simp] theorem State.ctx_updCtx_self (k : Nat) (f : Ctx → Ctx) : (s.updCtx k f).ctx k = f (s.ctx k) := Map.get_set_self _ _ _
theorem State.ctx_updCtx_ne {k i : Nat} (f : Ctx → Ctx) (h : i ≠ k) : (s.updCtx k f).ctx i = s.ctx i := Map.get_set_ne _ _ h
@[simp] theorem State.part_updPart_self (p : Nat) (f : Partition → Partition) : (s.updPart p f).part p = f (s.part p) := Map.get_set_self _ _ _
theorem State.part_updPart_ne {p i : Nat} (f : Partition → Partition) (h : i ≠ p) : (s.updPart p f).part i = s.part i := Map.get_set_ne _ _ h
@[simp] theorem State.quad_updQuad_self (q : Nat) (f : Quad → Quad) : (s.updQuad q f).quad q = f (s.quad q) := Map.get_set_self _ _ _
theorem State.quad_updQuad_ne {q i : Nat} (f : Quad → Quad) (h : i ≠ q) : (s.updQuad q f).quad i = s.quad i := Map.get_set_ne _ _ h
@[simp] theorem State.cluster_updCluster_self (c : Nat) (f : Cluster → Cluster) : (s.updCluster c f).cluster c = f (s.cluster c) := Map.get_set_self _ _ _
theorem State.cluster_updCluster_ne {c i : Nat} (f : Cluster → Cluster) (h : i ≠ c) : (s.updCluster c f).cluster i = s.cluster i := Map.get_set_ne _ _ h
@[simp] theorem State.port_updPort_self (k : Nat) (f : Port → Port) : (s.updPort k f).port k = f (s.port k) := Map.get_set_self _ _ _
theorem State.port_updPort_ne {k i : Nat} (f : Port → Port) (h : i ≠ k) : (s.updPort k f).port i = s.port i := Map.get_set_ne _ _ h
@[simp] theorem State.pat_updPat_self (k : Nat) (f : Pattern → Pattern) : (s.updPat k f).pat k = f (s.pat k) := Map.get_set_self _ _ _
theorem State.pat_updPat_ne {k i : Nat} (f : Pattern → Pattern) (h : i ≠ k) : (s.updPat k f).pat i = s.pat i := Map.get_set_ne _ _ h

end Sys2Proof.Machine
end

