-- ==== Sys2Proof/Laws/Memory.lean ====
section
/-! SUPPORT. Memory: reading after a write, and every operation that writes bytes keeps the canonical form. -/
set_option autoImplicit false

namespace Sys2Proof.Machine

/-! ### Maps -/

theorem Map.wf_mapVals {α : Type} [Inhabited α] [DecidableEq α] (f : Nat → α → α) (m : Map α) : Map.wf (m.mapVals f) = true := by
  induction m with
  | nil => rfl
  | cons p m ih => exact Map.wf_set _ _ _ ih

/-- Setting the entries of any list one after the other keeps the canonical form. -/
theorem Map.wf_foldl_set {α : Type} [Inhabited α] [DecidableEq α] (l : List (Nat × α)) (m : Map α) (h : Map.wf m = true) :
    Map.wf (l.foldl (fun (m : Map α) (c : Nat × α) => m.set c.1 c.2) m) = true := by
  induction l generalizing m with
  | nil => exact h
  | cons c l ih => exact ih _ (Map.wf_set _ _ _ h)

theorem Map.get_keep {α : Type} [Inhabited α] (p : Nat → Bool) (m : Map α) (k : Nat) :
    Map.get (m.keep (fun i _ => p i)) k = if p k then Map.get m k else default := by
  induction m with
  | nil => simp [Map.keep]
  | cons q m ih =>
    obtain ⟨j, a⟩ := q
    simp only [Map.keep, List.filter_cons] at ih ⊢
    by_cases hj : p j = true
    · simp only [hj, if_true, Map.get_cons, ih]
      by_cases e : j = k
      · subst e; simp [hj]
      · simp [e]
    · simp only [hj, Map.get_cons]
      by_cases e : j = k
      · subst e; simp only [hj, Bool.false_eq_true, if_false] at ih ⊢; exact ih
      · simp [e]; simpa using ih

/-! ### One byte and runs of bytes -/

variable (s : State)

@[simp] theorem State.byte_setByte_self (a : Nat) (b : Byte) : (s.setByte a b).byte a = b := Map.get_set_self _ _ _
theorem State.byte_setByte_ne {a i : Nat} (b : Byte) (h : i ≠ a) : (s.setByte a b).byte i = s.byte i := Map.get_set_ne _ _ h
@[simp] theorem State.setBytes_nil (a : Nat) : s.setBytes a [] = s := rfl
@[simp] theorem State.setBytes_cons (a : Nat) (b : Byte) (r : List Byte) : s.setBytes a (b :: r) = (s.setByte a b).setBytes (a + 1) r := rfl
@[simp] theorem State.length_bytes (a n : Nat) : (s.bytes a n).length = n := by simp [State.bytes]
@[simp] theorem length_natBytes (n x : Nat) : (natBytes n x).length = n := by
  induction n generalizing x with
  | zero => rfl
  | succ n ih => simp [natBytes, ih]

/-- The value of the bytes of a number is its low bytes. -/
theorem bytesNat_natBytes (n x : Nat) : bytesNat (natBytes n x) = x % 256 ^ n := by
  induction n generalizing x with
  | zero => simp [natBytes, bytesNat, Nat.mod_one]
  | succ n ih =>
    have e : x % 256 ^ (n + 1) = x % 256 + 256 * (x / 256 % 256 ^ n) := by rw [Nat.pow_succ']; exact Nat.mod_mul
    rw [natBytes, bytesNat, ih, BitVec.toNat_ofNat, e]

/-- `setBytes` changes memory alone. -/
theorem State.setBytes_same (a : Nat) (bs : List Byte) : ∃ m, s.setBytes a bs = { s with mem := m } := by
  induction bs generalizing s a with
  | nil => exact ⟨s.mem, rfl⟩
  | cons b r ih => obtain ⟨m, h⟩ := ih (s.setByte a b) (a + 1); exact ⟨m, h⟩

/-! ### The canonical form -/

variable {s}

theorem State.wf_reset : Memory.wf State.reset.mem = true := rfl

theorem State.wf_setByte (a : Nat) (b : Byte) (h : Memory.wf s.mem = true) : Memory.wf (s.setByte a b).mem = true := Map.wf_set _ _ _ h

theorem State.wf_setBytes (a : Nat) (bs : List Byte) (h : Memory.wf s.mem = true) : Memory.wf (s.setBytes a bs).mem = true := by
  induction bs generalizing s a with
  | nil => exact h
  | cons b r ih => exact ih _ (State.wf_setByte a b h)

theorem State.wf_write (a n x : Nat) (h : Memory.wf s.mem = true) : Memory.wf (s.write a n x).mem = true := State.wf_setBytes _ _ h

/-- A fold whose every step keeps a property of the state keeps it. -/
theorem State.foldl_keeps {α : Type} (P : State → Prop) (f : State → α → State) (hf : ∀ s x, P s → P (f s x)) (l : List α) :
    ∀ s, P s → P (l.foldl f s) := by
  induction l with
  | nil => exact fun _ h => h
  | cons x l ih => exact fun s h => ih _ (hf s x h)

/-- A fold whose every step leaves memory leaves it. -/
theorem State.foldl_mem {α : Type} (f : State → α → State) (hf : ∀ s x, (f s x).mem = s.mem) (l : List α) (s : State) : (l.foldl f s).mem = s.mem :=
  State.foldl_keeps (fun t => t.mem = s.mem) f (fun t x h => (hf t x).trans h) l s rfl

theorem State.wf_setCells (cells : List (Nat × Byte)) (h : Memory.wf s.mem = true) : Memory.wf (s.setCells cells).mem = true := by
  induction cells generalizing s with
  | nil => exact h
  | cons c r ih => exact ih (State.wf_setByte c.1 c.2 h)

@[simp] theorem State.leaveDebt_mem (s : State) (u n : Nat) (ks : List Nat) : (s.leaveDebt u n ks).mem = s.mem := by
  unfold State.leaveDebt; split <;> rfl

theorem State.wf_hostLand (n : Nat) (h : Memory.wf s.mem = true) : Memory.wf (s.hostLand n).mem = true := by
  unfold State.hostLand
  rw [State.leaveDebt_mem]
  exact State.wf_setCells (s := { s with hostStores := s.hostStores.erase n }) _ h

/-- Waking the warps that are parked on lines leaves memory. -/
@[simp] theorem State.wakeLines_mem (s : State) (p : Nat → Bool) (st : LineState) : (s.wakeLines p st).mem = s.mem := by
  unfold State.wakeLines
  refine State.foldl_mem _ (fun t u => ?_) s.warps.keys s
  split <;> rfl

@[simp] theorem State.updateByte_mem (s : State) (c loc : Nat) (b : Byte) : (s.updateByte c loc b).mem = s.mem := by
  unfold State.updateByte; split <;> rfl

@[simp] theorem State.cleanCells_mem (s : State) (gang : Bool) (cells : List (Nat × Byte)) : (s.cleanCells gang cells).mem = s.mem := by
  unfold State.cleanCells; split <;> rfl

/-- A write at a memory port writes its cells, and nothing else of memory. -/
theorem State.putCells_mem (s : State) (cs : List Nat) (gang : Bool) (cells : List (Nat × Byte)) : (s.putCells cs gang cells).mem = (s.setCells cells).mem := by
  unfold State.putCells
  rw [State.cleanCells_mem]
  exact State.foldl_mem (fun (s : State) (c : Nat) => cells.foldl (fun (s : State) (x : Nat × Byte) => s.updateByte c x.1 x.2) s)
    (fun s c => State.foldl_mem (fun (s : State) (x : Nat × Byte) => s.updateByte c x.1 x.2) (fun s x => State.updateByte_mem s c x.1 x.2) cells s) cs _

theorem State.wf_putCells (cs : List Nat) (gang : Bool) (cells : List (Nat × Byte)) (h : Memory.wf s.mem = true) :
    Memory.wf (s.putCells cs gang cells).mem = true := (State.putCells_mem s cs gang cells) ▸ State.wf_setCells cells h

theorem State.wf_wipeRange (loc len : Nat) (h : Memory.wf s.mem = true) : Memory.wf (s.wipeRange loc len).mem = true :=
  (State.wakeLines_mem _ _ _).symm ▸ Map.wf_keep (fun k _ => decide (1 * k + 1 ≤ loc) || decide (loc + len ≤ 1 * k)) s.mem h

theorem State.wf_wipeAll (h : Memory.wf s.mem = true) : Memory.wf s.wipeAll.mem = true :=
  Map.wf_keep (fun k _ => decide (2 ^ 64 ≤ k)) s.mem h

theorem State.wf_restoreSnap (g : Nat) (y : Snap) (h : Memory.wf s.mem = true) : Memory.wf (s.restoreSnap g y).mem = true := by
  have h1 : ∀ l : List (Nat × Warp), (l.foldl (fun s p => s.setWarp p.1 { p.2 with quad := (s.warp p.1).quad, spillSlot := p.2.spillSlot }) s).mem = s.mem :=
    fun l => State.foldl_mem (fun (s : State) (p : Nat × Warp) => s.setWarp p.1 { p.2 with quad := (s.warp p.1).quad, spillSlot := p.2.spillSlot }) (fun _ _ => rfl) l s
  exact Map.wf_foldl_set _ _ (Map.wf_keep _ _ ((h1 y.warps).symm ▸ h))

/-- A wiped byte reads zero, every other as before. -/
theorem State.byte_wipeRange (loc len a : Nat) : (s.wipeRange loc len).byte a = if loc ≤ a ∧ a < loc + len then 0#8 else s.byte a := by
  have e : (s.wipeRange loc len).byte a = Map.get (s.mem.keep (fun k _ => decide (1 * k + 1 ≤ loc) || decide (loc + len ≤ 1 * k))) a :=
    congrArg (fun m : Map Byte => m.get a) (State.wakeLines_mem _ _ _)
  rw [e, Map.get_keep]
  by_cases h : loc ≤ a ∧ a < loc + len
  · rw [if_pos h, if_neg (by simp; omega)]; rfl
  · rw [if_neg h, if_pos (by simp; omega)]; rfl

end Sys2Proof.Machine
end

