-- ==== Sys2Proof/Laws/Ops.lean ====
section
/-! SUPPORT. What the shared operations over registers and over the step in progress do, said once for each. -/
set_option autoImplicit false

namespace Sys2Proof.Machine

/-! ### Registers -/

variable (w : Warp)

@[simp] theorem Warp.vword_setV_self (r l : Nat) (x : Word) : (w.setV r l x).vword r l = x := Map.get_set_self _ _ _
theorem Warp.vword_setV_ne {r l q k : Nat} (x : Word) (h : 32 * q + k ≠ 32 * r + l) : (w.setV r l x).vword q k = w.vword q k := Map.get_set_ne _ _ h
@[simp] theorem Warp.sword_setV (r l q : Nat) (x : Word) : (w.setV r l x).sword q = w.sword q := rfl
@[simp] theorem Warp.sp_setV (r l : Nat) (x : Word) : (w.setV r l x).sp = w.sp := rfl
@[simp] theorem Warp.step_setV (r l : Nat) (x : Word) : (w.setV r l x).step = w.step := rfl
@[simp] theorem Warp.sword_setS_self (r : Nat) (x : Word) : (w.setS r x).sword r = x := Map.get_set_self _ _ _
theorem Warp.sword_setS_ne {r q : Nat} (x : Word) (h : q ≠ r) : (w.setS r x).sword q = w.sword q := Map.get_set_ne _ _ h
@[simp] theorem Warp.vword_setS (r q l : Nat) (x : Word) : (w.setS r x).vword q l = w.vword q l := rfl
@[simp] theorem Warp.sword_setMask_self (r : Nat) (x : Word) : (w.setMask r x).sword r = x := Map.get_set_self _ _ _
theorem Warp.sword_setMask_ne {r q : Nat} (x : Word) (h : q ≠ r) : (w.setMask r x).sword q = w.sword q := Map.get_set_ne _ _ h
@[simp] theorem Warp.sp_setS (r : Nat) (x : Word) : (w.setS r x).sp = w.sp := rfl
@[simp] theorem Warp.step_setS (r : Nat) (x : Word) : (w.setS r x).step = w.step := rfl

/-- The lanes written by a list of lane writes. -/
theorem Warp.vword_foldl_setV (r : Nat) (v : Lanes) (ls : List Nat) (h : ∀ i ∈ ls, i < 32) (q k : Nat) (hk : k < 32) :
    (ls.foldl (fun a l => a.setV r l (v.at l)) w).vword q k = if q = r ∧ k ∈ ls then v.at k else w.vword q k := by
  induction ls generalizing w with
  | nil => simp
  | cons i ls ih =>
    have hi : i < 32 := h i (by simp)
    rw [List.foldl_cons, ih (w.setV r i (v.at i)) (fun j hj => h j (by simp [hj]))]
    by_cases hq : q = r
    · by_cases hm : k ∈ ls
      · simp [hq, hm]
      · by_cases e : k = i
        · subst e; simp [hq]
        · rw [if_neg (by simp [hm]), if_neg (by simp [hm, e]), Warp.vword_setV_ne _ _ (by omega)]
    · rw [if_neg (by simp [hq]), if_neg (by simp [hq]), Warp.vword_setV_ne _ _ (by omega)]

/-- A masked register write writes the lanes of its mask and no other register. -/
theorem Warp.vword_setVs (r : Nat) (m : Mask) (v : Lanes) (q k : Nat) (hk : k < 32) :
    (w.setVs r m v).vword q k = if q = r ∧ m.has k then v.at k else w.vword q k := by
  unfold Warp.setVs
  rw [Warp.vword_foldl_setV w r v m.lanes (fun i hi => by simp [Mask.lanes] at hi; exact hi.1) q k hk]
  simp [Mask.lanes, hk]

theorem Warp.setVs_same (r : Nat) (m : Mask) (v : Lanes) : ∃ x, w.setVs r m v = { w with regs := x } ∧ x.scal = w.regs.scal ∧ x.stag = w.regs.stag := by
  unfold Warp.setVs
  generalize m.lanes = ls
  induction ls generalizing w with
  | nil => exact ⟨w.regs, rfl, rfl, rfl⟩
  | cons i ls ih => obtain ⟨x, h1, h2, h3⟩ := ih (w.setV r i (v.at i)); exact ⟨x, h1, h2, h3⟩

/-- The lane program counters after a write of some of them. -/
theorem Warp.vpcAt_setVpc (m : Mask) (f : Nat → Word) (l : Nat) (h : l < 32) : (w.setVpc m f).vpcAt l = if m.has l then f l else w.vpcAt l := by
  simp [Warp.setVpc, Warp.vpcAt, h]

/-! ### The end of an operation -/

variable (s : State)

/-- An operation that does not end its step shifts the latches, appends its effects, and the next operation follows. -/
theorem State.finish_more (res : Option Lanes) (buf : List Buf) (conds : List Cond) :
    s.finish false res buf conds = s.updMe (fun w => { w with step := { w.step with
      latches := res :: w.step.latches.take 3, lrep := (buf.findSome? Buf.replyOf) :: w.step.lrep.take 3,
      buf := w.step.buf ++ buf, conds := w.step.conds ++ conds, idx := w.step.idx + 1, ops := w.step.ops.drop 1 } }) := rfl

/-- The last operation closes the step too. -/
theorem State.finish_last (res : Option Lanes) (buf : List Buf) (conds : List Cond) :
    s.finish true res buf conds = (s.finish false res buf conds).commit s.actor := rfl

theorem State.finish_more_mem (res : Option Lanes) (buf : List Buf) (conds : List Cond) : (s.finish false res buf conds).mem = s.mem := rfl

theorem State.commit_trap (u : Nat) (h : (s.warp u).enabledConds ≠ []) : s.commit u = s.arithTrap u := by
  unfold State.commit
  rw [if_pos (by simpa using h)]

theorem State.commit_now (u : Nat) (h : (s.warp u).enabledConds = []) (hf : s.fencesOk u = true) : s.commit u = s.commitNow u := by
  unfold State.commit
  rw [if_neg (by simp [h]), if_pos hf]

/-! ### Stops within a step -/

theorem State.orArith_clear (k : State → State) (h : s.me.enabledConds = []) : s.orArith k = k s := by
  unfold State.orArith
  rw [if_pos (by simp [h])]

theorem State.orArith_trap (k : State → State) (h : s.me.enabledConds ≠ []) : s.orArith k = s.arithTrap s.actor := by
  unfold State.orArith
  rw [if_neg (by simpa using h)]

theorem State.raise_clear (cause : Nat) (taddr tinfo : Word) (m : Mask) (h : s.me.enabledConds = []) :
    s.raise cause taddr tinfo m = s.faultWarp s.actor cause taddr tinfo m := s.orArith_clear _ h

theorem State.park_clear (t : Wait) (h : s.me.enabledConds = []) : s.park t = s.updMe (fun w => { w.abandon with wait := t }) := s.orArith_clear _ h

theorem State.reject_clear (kind : Nat) (h : s.me.enabledConds = []) :
    s.reject kind = s.updMe (fun w => { w.abandon with wait := .reject (w.age.getD s.clock), age := some (w.age.getD s.clock), rejKind := kind }) := s.orArith_clear _ h

/-- An abandoned step leaves the registers, the special registers and the mode of its warp. -/
theorem Warp.abandon_keeps : w.abandon.regs = w.regs ∧ w.abandon.sp = w.sp ∧ w.abandon.mode = w.mode ∧ w.abandon.exited = w.exited := ⟨rfl, rfl, rfl, rfl⟩

/-! ### The commit of a step that has only register writes -/

/-- What a buffered register write does to its warp. -/
def Buf.onWarp (b : Buf) (w : Warp) : Warp :=
  match b with
  | .vec r m v => w.setVs r m v
  | .scal r x => w.setS r x
  | .mscal r x => w.setMask r x
  | _ => w

theorem State.applyBuf_write (s : State) (u : Nat) (b : Buf) (h : b.isWrite = true) : s.applyBuf u b = s.updWarp u b.onWarp := by
  cases b <;> simp_all [Buf.isWrite] <;> rfl

/-- A fold of register writes. -/
theorem State.foldl_applyBuf (u : Nat) (bs : List Buf) (h : bs.all Buf.isWrite = true) : ∀ s : State,
    ∃ W : Map Warp, bs.foldl (fun s b => s.applyBuf u b) s = { s with warps := W } ∧ (∀ v, v ≠ u → W.get v = s.warp v) ∧
      W.get u = bs.foldl (fun w b => Buf.onWarp b w) (s.warp u) := by
  induction bs with
  | nil => intro s; exact ⟨s.warps, rfl, fun _ _ => rfl, rfl⟩
  | cons b bs ih =>
    simp only [List.all_cons, Bool.and_eq_true] at h
    intro s
    obtain ⟨W, h1, h2, h3⟩ := ih h.2 (s.updWarp u b.onWarp)
    refine ⟨W, ?_, ?_, ?_⟩
    · rw [List.foldl_cons, State.applyBuf_write s u b h.1, h1]; rfl
    · intro v hv; rw [h2 v hv]; exact State.warp_updWarp_ne s _ hv
    · rw [h3]; simp

theorem Warp.setVs_keeps (w : Warp) (r : Nat) (m : Mask) (v : Lanes) : ∃ x, w.setVs r m v = { w with regs := x } := by
  obtain ⟨x, h, _⟩ := w.setVs_same r m v; exact ⟨x, h⟩

theorem Buf.onWarp_keeps (b : Buf) (w : Warp) : ∃ x, b.onWarp w = { w with regs := x } := by
  cases b
  case vec r m v => exact w.setVs_keeps r m v
  case scal r x => exact ⟨_, rfl⟩
  case mscal r x => exact ⟨_, rfl⟩
  all_goals exact ⟨w.regs, rfl⟩

theorem Warp.setVs_regs (r : Nat) (v : Lanes) (ls : List Nat) : ∀ a b : Warp, a.regs = b.regs →
    (ls.foldl (fun a l => a.setV r l (v.at l)) a).regs = (ls.foldl (fun a l => a.setV r l (v.at l)) b).regs := by
  induction ls with
  | nil => exact fun _ _ h => h
  | cons i ls ih => exact fun a b h => ih _ _ (by simp only [Warp.setV, h])

theorem Buf.onWarp_regs (x : Buf) (a b : Warp) (h : a.regs = b.regs) : (x.onWarp a).regs = (x.onWarp b).regs := by
  cases x
  case vec r m v => exact Warp.setVs_regs r v _ a b h
  case scal r x => simp only [Buf.onWarp, Warp.setS, h]
  case mscal r x => simp only [Buf.onWarp, Warp.setMask, h]
  all_goals exact h

theorem foldl_onWarp_regs (bs : List Buf) : ∀ a b : Warp, a.regs = b.regs →
    (bs.foldl (fun w b => Buf.onWarp b w) a).regs = (bs.foldl (fun w b => Buf.onWarp b w) b).regs := by
  induction bs with
  | nil => exact fun _ _ h => h
  | cons x bs ih => exact fun a b h => ih _ _ (x.onWarp_regs a b h)

theorem foldl_onWarp_keeps (bs : List Buf) (w : Warp) : ∃ x, bs.foldl (fun w b => Buf.onWarp b w) w = { w with regs := x } := by
  induction bs generalizing w with
  | nil => exact ⟨w.regs, rfl⟩
  | cons b bs ih =>
    obtain ⟨x, h⟩ := b.onWarp_keeps w
    obtain ⟨y, h'⟩ := ih (b.onWarp w)
    exact ⟨y, by rw [List.foldl_cons, h', h]⟩

theorem Warp.releaseMasks_keeps (w : Warp) (ks : List Nat) : ∃ x, w.releaseMasks ks = { w with wsets := x } := by
  unfold Warp.releaseMasks
  induction ks generalizing w with
  | nil => exact ⟨w.wsets, rfl⟩
  | cons k ks ih =>
    simp only [List.foldl_cons]
    split
    · obtain ⟨x, h⟩ := ih { w with wsets := w.wsets.set k 0#32 }; exact ⟨x, h⟩
    · exact ih w

theorem State.unpark_free (s : State) (u : Nat) (h1 : (s.warp u).tryPort = none) (h2 : (s.warp u).tryHeap = none) :
    s.unpark u = s.updWarp u (fun w => { w with tryPort := none, tryAway := false, tryHeap := none }) := by
  unfold State.unpark; simp only [h1, h2]

theorem State.endWaitTrap_ready (s : State) (u : Nat) (h : (s.warp u).wait = .ready) : s.endWaitTrap u = s := by
  unfold State.endWaitTrap; rw [h]

theorem State.takeWaitTrap_ready (s : State) (u : Nat) (h : (s.warp u).wait = .ready) : s.takeWaitTrap u = s := by
  unfold State.takeWaitTrap; rw [State.endWaitTrap_ready s u h, ite_self]

theorem State.postCommit_writes (s : State) (u : Nat) (e : Word) (bs : List Buf) (hw : (s.warp u).wait = .ready) (hb : bs.all Buf.isWrite = true) :
    s.postCommit u e bs = s := by
  unfold State.postCommit
  rw [State.endWaitTrap_ready s u hw, State.takeWaitTrap_ready s u hw, ite_self]
  clear hw
  induction bs with
  | nil => rfl
  | cons b bs ih =>
    simp only [List.all_cons, Bool.and_eq_true] at hb
    rw [List.foldl_cons]
    cases b <;> first | exact ih hb.2 | simp [Buf.isWrite] at hb

/-- Leaving a loop buffer changes its list of users alone. -/
theorem State.leaveLoop_same (s : State) (u : Nat) : ∃ Q : Map Quad, s.leaveLoop u = { s with quads := Q } ∧
    ∀ q, { Q.get q with loopBuf := (s.quad q).loopBuf } = s.quad q := by
  unfold State.leaveLoop
  dsimp only
  split
  · refine ⟨_, rfl, fun q => ?_⟩
    by_cases h : q = (s.warp u).quad
    · subst h; rw [Map.get_set_self]
    · rw [Map.get_set_ne _ _ h]; rfl
  · exact ⟨s.quads, rfl, fun _ => rfl⟩

theorem State.checkLoop_same (s : State) (u : Nat) (pc : Word) : ∃ Q : Map Quad, s.checkLoop u pc = { s with quads := Q } ∧
    ∀ q, { Q.get q with loopBuf := (s.quad q).loopBuf } = s.quad q := by
  unfold State.checkLoop
  dsimp only
  split
  · exact ⟨s.quads, rfl, fun _ => rfl⟩
  · exact s.leaveLoop_same u

theorem State.keepPoint_live (s : State) (g : Nat) (h : (s.launch (s.gang g).launch).replay = false) : s.keepPoint g = s := by
  unfold State.keepPoint State.checkpointDue State.snapshot
  simp [h]

theorem State.followLoop_same (s : State) (u : Nat) : ∃ Q : Map Quad, s.followLoop u = { s with quads := Q } ∧
    ∀ q, { Q.get q with loopBuf := (s.quad q).loopBuf } = s.quad q := by
  unfold State.followLoop
  split
  · exact s.checkLoop_same u _
  · exact ⟨s.quads, rfl, fun _ => rfl⟩

/-- The commit of a step that has only register writes, of a warp at rest: the buffer's writes, the flags, the lane program counters, STEPS. -/
theorem State.commit_atRest (s : State) (u : Nat)
    (hw : (s.warp u).wait = .ready) (hs : (s.warp u).stepping = false) (hp : (s.warp u).tryPort = none) (hh : (s.warp u).tryHeap = none)
    (hx : (s.warp u).unexited ≠ 0#32) (hg : (s.gang (s.warp u).gang).halted = false) (hd : (s.gang (s.warp u).gang).wdPend = false)
    (hr : (s.launch (s.gang (s.warp u).gang).launch).replay = false)
    (hb : (s.warp u).step.buf.all Buf.isWrite = true) (hc : (s.warp u).enabledConds = []) :
    ∃ (W : Map Warp) (G : Map Gang) (Q : Map Quad) (ws : Map Mask),
      s.commit u = { s with warps := W, gangs := G, quads := Q } ∧ (∀ v, v ≠ u → W.get v = s.warp v) ∧
      (∀ q, { Q.get q with loopBuf := (s.quad q).loopBuf } = s.quad q) ∧
      (let w := s.warp u
       let c := w.step
       W.get u = { w with
         regs := (c.buf.foldl (fun w b => Buf.onWarp b w) w).regs
         wsets := ws
         tryPort := none
         tryAway := false
         tryHeap := none
         step := {}
         age := none
         rejKind := 0
         urgent := false
         woken := []
         sp := { (w.setVpc c.issue (fun l => c.nexts.getD l (c.first + BitVec.ofNat 32 c.len))).sp with
           flags := w.sp.flags ||| BitVec.ofNat 32 (condBits c.conds)
           steps := w.sp.steps + 1 } }) := by
  have hf : s.fencesOk u = true := by
    unfold State.fencesOk
    rw [List.all_eq_true] at hb ⊢
    intro b hbm
    have := hb b hbm
    cases b <;> simp_all [Buf.isWrite]
  rw [State.commit_now s u hc hf]
  generalize hW : s.warp u = w at *
  obtain ⟨W1, e1, f1, g1⟩ := State.foldl_applyBuf u w.step.buf hb
    (s.updWarp u (fun w' => w'.setVpc w.step.issue (fun l => w.step.nexts.getD l w.step.stepEnd)))
  rw [State.warp_updWarp_self, hW] at g1
  obtain ⟨rx, grx⟩ := foldl_onWarp_keeps w.step.buf (w.setVpc w.step.issue (fun l => w.step.nexts.getD l w.step.stepEnd))
  have grx' : rx = (w.step.buf.foldl (fun w b => Buf.onWarp b w) w).regs := by
    have h1 := foldl_onWarp_regs w.step.buf (w.setVpc w.step.issue (fun l => w.step.nexts.getD l w.step.stepEnd)) w rfl
    rw [grx] at h1; exact h1
  rw [grx] at g1
  unfold State.commitNow
  simp only [hW, e1]
  generalize hs2 : ({ s.updWarp u (fun w' => w'.setVpc w.step.issue (fun l => w.step.nexts.getD l w.step.stepEnd)) with warps := W1 } : State) = s2
  have hs2w : s2.warp u = { w.setVpc w.step.issue (fun l => w.step.nexts.getD l w.step.stepEnd) with regs := rx } := by
    rw [← hs2]; exact g1
  rw [State.unpark_free s2 u (by rw [hs2w]; exact hp) (by rw [hs2w]; exact hh)]
  generalize hs3 : (s2.updWarp u (fun w => { w with tryPort := none, tryAway := false, tryHeap := none })).updWarp u (fun w' =>
    let w' := { w' with
      step := {}
      age := none
      rejKind := 0
      urgent := false
      woken := []
      sp := { w'.sp with
        flags := w'.sp.flags ||| BitVec.ofNat 32 (w.step.conds.foldl (fun a (x : Cond) => if x.bit < 7 then a ||| 2 ^ x.bit else a) 0)
        steps := w'.sp.steps + 1 } }
    w'.releaseMasks (w.step.buf.flatMap Buf.maskWritten)) = s3
  have hs3w : ∃ ws, s3.warp u = { w with
         regs := rx
         wsets := ws
         tryPort := none
         tryAway := false
         tryHeap := none
         step := {}
         age := none
         rejKind := 0
         urgent := false
         woken := []
         sp := { (w.setVpc w.step.issue (fun l => w.step.nexts.getD l (w.step.first + BitVec.ofNat 32 w.step.len))).sp with
           flags := w.sp.flags ||| BitVec.ofNat 32 (condBits w.step.conds)
           steps := w.sp.steps + 1 } } := by
    rw [← hs3, State.warp_updWarp_self, State.warp_updWarp_self, hs2w]
    obtain ⟨ws, h⟩ := Warp.releaseMasks_keeps _ (w.step.buf.flatMap Buf.maskWritten)
    exact ⟨ws, h.trans rfl⟩
  obtain ⟨ws, hs3w⟩ := hs3w
  have hs3r : ∃ W, s3 = { s with warps := W } ∧ ∀ v, v ≠ u → W.get v = s.warp v := by
    refine ⟨s3.warps, ?_, ?_⟩
    · rw [← hs3, ← hs2]; rfl
    · intro v hv
      show s3.warp v = s.warp v
      rw [← hs3, State.warp_updWarp_ne _ _ hv, State.warp_updWarp_ne _ _ hv, ← hs2]
      show W1.get v = _
      rw [f1 v hv, State.warp_updWarp_ne _ _ hv]
  obtain ⟨W, hs3r, hW3⟩ := hs3r
  generalize hs4 : s3.countStep u = s4
  have hs4e : s4 = s3.updGang w.gang (fun x => { x with wdog := 0, count := x.count + 1, lastCommit := some w.wid, turnOf := none }) := by
    rw [← hs4]; unfold State.countStep; rw [hs3w]
  generalize hs5 : s4.followLoop u = s5
  have hs5e : ∃ Q : Map Quad, s5 = { s4 with quads := Q } ∧ ∀ q, { Q.get q with loopBuf := (s4.quad q).loopBuf } = s4.quad q :=
    hs5 ▸ s4.followLoop_same u
  obtain ⟨Q, hs5e, hQ⟩ := hs5e
  have hs5w : s5.warp u = s3.warp u := by rw [hs5e, hs4e]; rfl
  have hs5g : s5.gang w.gang = { s.gang w.gang with wdog := 0, count := (s.gang w.gang).count + 1, lastCommit := some w.wid, turnOf := none } := by
    rw [hs5e]
    show s4.gang w.gang = _
    rw [hs4e, State.gang_updGang_self, hs3r]; rfl
  have hs5l : s5.launch = s.launch := by rw [hs5e, hs4e, hs3r]; rfl
  rw [if_neg (by rw [hs5w, hs3w]; exact hx)]
  rw [State.postCommit_writes s5 u _ _ (by rw [hs5w, hs3w]; exact hw) hb, hs5w, hs3w]
  simp only []
  rw [State.keepPoint_live s5 w.gang (by rw [hs5g, hs5l]; exact hr)]
  have hbs : s5.boundaryStop u = s5 := by
    unfold State.boundaryStop
    simp only [hs5w, hs3w, hs5g]
    simp only [hs, hg]
    simp only [Bool.false_eq_true, if_false, Bool.false_and]
  rw [hbs]
  have hrw : s5.raiseWatchdog w.gang = s5 := by
    unfold State.raiseWatchdog
    simp only [hs5g]
    simp only [hd]
    simp only [Bool.not_false, Bool.true_or, if_true]
  rw [hrw]
  refine ⟨W, s4.gangs, Q, ws, ?_, hW3, ?_, ?_⟩
  · rw [hs5e, hs4e, hs3r]; rfl
  · intro q
    have h := hQ q
    rw [hs4e, hs3r] at h
    exact h
  · have e : W.get u = s3.warp u := by rw [hs3r]; rfl
    rw [e, hs3w, ← grx']

/-! ### What a list of buffered register writes leaves -/

theorem foldl_option_or {α β : Type} (f : Option α → β → Option α) (h : ∀ a b, f a b = (f none b).or a) (bs : List β) (a : Option α) :
    bs.foldl f a = (bs.foldl f none).or a := by
  induction bs generalizing a with
  | nil => simp
  | cons b bs ih => rw [List.foldl_cons, List.foldl_cons, ih, h, ih (f none b)]; simp [Option.or_assoc]

theorem lastVec_cons (b : Buf) (bs : List Buf) (r l : Nat) : lastVec (b :: bs) r l = (lastVec bs r l).or (lastVec [b] r l) := by
  unfold lastVec
  rw [List.foldl_cons, foldl_option_or]
  · rfl
  · intro a b; cases b <;> simp
    split <;> simp

theorem lastScal_cons (b : Buf) (bs : List Buf) (r : Nat) : lastScal (b :: bs) r = (lastScal bs r).or (lastScal [b] r) := by
  unfold lastScal
  rw [List.foldl_cons, foldl_option_or]
  · rfl
  · intro a b; cases b <;> simp
    all_goals split <;> simp

/-- What a list of buffered writes leaves in a vector register. -/
theorem vword_foldl_onWarp (bs : List Buf) (r l : Nat) (hl : l < 32) (w : Warp) :
    (bs.foldl (fun w b => Buf.onWarp b w) w).vword r l = (lastVec bs r l).getD (w.vword r l) := by
  induction bs generalizing w with
  | nil => rfl
  | cons b bs ih =>
    rw [List.foldl_cons, ih, lastVec_cons]
    cases lastVec bs r l with
    | some x => rfl
    | none =>
      cases b
      case vec q m v =>
        simp only [Buf.onWarp, Option.getD_none, Warp.vword_setVs _ _ _ _ _ _ hl, lastVec, List.foldl_cons, List.foldl_nil, Option.none_or]
        by_cases h : q = r
        · subst h; by_cases h2 : m.has l = true <;> simp [h2]
        · have h' : r ≠ q := fun e => h e.symm
          simp [h, h']
      all_goals rfl

/-- What they leave in a scalar register. -/
theorem sword_foldl_onWarp (bs : List Buf) (r : Nat) (w : Warp) :
    (bs.foldl (fun w b => Buf.onWarp b w) w).sword r = (lastScal bs r).getD (w.sword r) := by
  induction bs generalizing w with
  | nil => rfl
  | cons b bs ih =>
    rw [List.foldl_cons, ih, lastScal_cons]
    cases lastScal bs r with
    | some x => rfl
    | none =>
      cases b
      case vec q m v =>
        obtain ⟨x, h, h2, _⟩ := w.setVs_same q m v
        simp only [Buf.onWarp, Option.getD_none, lastScal, List.foldl_cons, List.foldl_nil, Option.none_or]
        rw [h]; unfold Warp.sword; simp only [h2]
      case scal q x =>
        simp only [Buf.onWarp, Option.getD_none, lastScal, List.foldl_cons, List.foldl_nil, Option.none_or]
        by_cases h : q = r
        · subst h; simp
        · rw [Warp.sword_setS_ne _ _ (fun e => h e.symm)]; simp [h]
      case mscal q x =>
        simp only [Buf.onWarp, Option.getD_none, lastScal, List.foldl_cons, List.foldl_nil, Option.none_or]
        by_cases h : q = r
        · subst h; simp
        · rw [Warp.sword_setMask_ne _ _ (fun e => h e.symm)]; simp [h]
      all_goals rfl

theorem Warp.vword_of_regs (a b : Warp) (h : a.regs = b.regs) (r l : Nat) : a.vword r l = b.vword r l := by unfold Warp.vword; rw [h]
theorem Warp.sword_of_regs (a b : Warp) (h : a.regs = b.regs) (r : Nat) : a.sword r = b.sword r := by unfold Warp.sword; rw [h]

theorem Warp.enabledConds_nil (w : Warp) (h : ∀ c ∈ w.step.conds, w.sp.fpctl.getLsbD c.bit = false) : w.enabledConds = [] := by
  unfold Warp.enabledConds
  rw [List.filter_eq_nil_iff]
  intro c hc; simp [h c hc]

end Sys2Proof.Machine
end

