-- ==== Sys2Proof/Tests/Slice0.lean ====
section
/-! SUPPORT. The model's own tests: ill-formed terms that WellFormed refuses, words written out bit by bit from the encodings of spec/, one witness for the
hypotheses of each statement, and single steps with results from the spec's tables. -/
set_option autoImplicit false
set_option Elab.async false

namespace Sys2Proof.Tests
open Sys2Proof Sys2Proof.Machine

/-! ### Small states -/

/-- A format N operation with E = 1, V = 0, G = 0, RNE. -/
def op (ty : Ty) (d : BitVec 9) (a b c : Src) : NOp := ⟨true, false, d, a, b, c, .all, .rne, ty⟩
/-- A format X operation with E = 1, V = 0 and plain formats. -/
def xop (d : BitVec 9) (a : Src) (x : BitVec 19) : XOp := ⟨true, false, d, a, 0#6, 0#6, false, x⟩

/-- A warp in the middle of a one-operation step at 0x40, all lanes executing. -/
def warp0 : Warp :=
  { live := true, present := Mask.full, vbudget := 256, sbudget := 512, sp := { vpc := List.replicate 32 0x40#32 },
    step := { started := true, first := 0x40#32, len := 8, issue := Mask.full } }

/-- A package with partition 0, context 0 and one gang of `ws`, the first of which executes. -/
def pkg (ws : List Warp) : State :=
  { powered := true, warps := (ws.zipIdx).map (fun x => (x.2, x.1)), gangs := [(0, { place := .resident, warps := List.range ws.length, gangSize := 0x10000 })],
    launches := [(0, { live := true, cls := 1 })], parts := [(0, { live := true, nsec := 1 })], ctxs := [(0, { live := true })] }

/-- The same with one warp. -/
def one : State := pkg [warp0]
/-- A package whose next command came in by this port. -/
def asked (v : McPort) (s : State) : State := { s with mc := { s.mc with via := v } }

/-- Scratchpad page 0 of context 0, readable and writable, at PPA 2^40. -/
def scrTlb : Map TlbEntry := [(2 ^ 36, { leaf := 0xF000010000000000#64, size := 65536 })]

/-! ### Ill-formed terms (checks 3 and 4 of R54) -/

theorem illformed_reserved_type : (Instr.vadd (op .f32 1 (.vec 1) (.vec 2) (.vec 0))).ok3 = false := by decide
theorem illformed_unused_source : (Instr.vadd (op .i32 1 (.vec 1) (.vec 2) (.vec 3))).ok3 = false := by decide
theorem illformed_odd_pair : (Instr.sadd (op .i64 5 (.scal 2) (.scal 4) (.vec 0))).wellFormed = false := by decide
theorem illformed_mask_destination : (Instr.vcmp (op .i32 4 (.vec 1) (.vec 2) (.lit 2))).wellFormed = false := by decide
theorem illformed_scalar_takes_vector : (Instr.sadd (op .i32 4 (.vec 1) (.scal 2) (.vec 0))).ok4 = false := by decide
theorem illformed_event : (Instr.getVersion).isNative = false := by decide

/-! ### Words of the encodings (R36 to R46) -/

theorem decode_worked_words : Obligations.WorkedWordsDecode := ⟨rfl, rfl, rfl, rfl⟩
theorem decode_nop : decode 0x0020000000000000#64 = .ok (.nop (op .i32 0 (.vec 0) (.vec 0) (.vec 0))) := rfl
theorem decode_call : decode 0x00E4000000040280#64 = .ok (.call ⟨true, .mask 1, 4#32, .vec 20⟩) := rfl
theorem decode_vaddc : decode 0x10A0500200CFE001#64 = .ok (.vaddc (op .n32 10 (.vec 2) (.vec 6) (.scal 504))) := rfl
theorem decode_vcvt : decode 0x48201801CA780000#64 = .ok (.vcvt (op .i32 3 (.vec 1) (.lit 0x53) (.lit 0))) := rfl
theorem decode_vreduce : decode 0x64A0400400180808#64 = .ok (.vreduce (op .f32 8 (.vec 4) (.vec 0) (.lit 2))) := rfl
theorem decode_mma : decode 0x706002280C300000#64 = .ok (.mma ⟨true, false, 0, .scal 40, 3#6, 3#6, false, 0⟩) := rfl
theorem decode_accwr : decode 0x7120000000000064#64 = .ok (.accwr (xop 0 (.vec 0) 0x64)) := rfl
theorem decode_stscr : decode 0x8248020800000400#64 = .ok (.stscr ⟨false, .latch 0, .scal 8, 0, 2, .rlx, .warp, .normal⟩) := rfl
theorem decode_lddom : decode 0x84205214000406B0#64 = .ok (.lddom ⟨true, false, 10, .scal 20, 0x40, 3, .acq, .dom, .normal, false, false⟩) := rfl
theorem decode_redscr : decode 0x82E0000200600364#64 = .ok (.redscr ⟨true, false, 0, .vec 2, .vec 3, .vec 0, 0xD#4, .rel, .part⟩) := rfl
theorem decode_copy : decode 0x8820F20A00000000#64 = .ok (.copy (xop 30 (.scal 10) 0)) := rfl
theorem decode_fence : decode 0xA0E0000000000120#64 = .ok (.fence ⟨true, false, 0, .rel, .part, false⟩) := rfl
theorem decode_barsync : decode 0xB1200601C0400000#64 = .ok (.barsync (op .i32 0 (.lit 1) (.lit 2) (.vec 0))) := rfl
theorem decode_timepost : decode 0xB4E0A23200000000#64 = .ok (.timepost (xop 20 (.scal 50) 0)) := rfl
theorem decode_patarm : decode 0xB5602E11C0200000#64 = .ok (.patarm (op .i32 5 (.lit 17) (.lit 1) (.vec 0))) := rfl
theorem decode_gainadd : decode 0xB8E0060000A01800#64 = .ok (.gainadd (op .i32 0 (.lit 0) (.vec 5) (.vec 6))) := rfl
theorem decode_heappop_w : decode 0xB860560000000001#64 = .ok (.heappop true (op .i32 10 (.lit 0) (.vec 0) (.vec 0))) := rfl
theorem decode_kwsel : decode 0xC020A60300000000#64 = .ok (.kwsel (op .i32 20 (.lit 3) (.vec 0) (.vec 0))) := rfl
theorem decode_tlbinv : decode 0xC320360140980000#64 = .ok (.tlbinv (op .i32 6 (.lit 1) (.scal 4) (.lit 0))) := rfl
theorem decode_wipe_hbm : decode 0xC360521400000001#64 = .ok (.wipe (xop 10 (.scal 20) 1)) := rfl
/-- An operation number of no row decodes to nothing (R54). -/
theorem decode_reserved : (decode 0xFFFFFFFFFFFFFFFF#64).toOption = none := by decide

/-! ### A word placed where the next step fetches it -/

/-- The placed word runs as the first step after reset (R24, R27). -/
theorem placed_nop_runs : (match step (State.reset.withFetchWord 64 0x0020000000000000) with | .next t => (t.warp 0).sp.steps == 1 | _ => false) = true := by decide +kernel
theorem placed_vmovi_writes : (match step (State.reset.withFetchWord 64 0x18E02000FFFFFFFF) with | .next t => (t.warp 0).vword 4 31 == 0xFFFFFFFF#32 | _ => false) = true := by decide +kernel
/-- A word that does not decode traps with ILLEGAL_OP (R54, R342). -/
theorem placed_reserved_traps : (match step (State.reset.withFetchWord 64 0xFFFFFFFFFFFFFFFF) with | .next t => (t.warp 0).sp.tcause == 1#32 && (t.warp 0).mode == .sup | _ => false) = true := by decide +kernel
theorem withFetchWord_memory_canonical : Memory.wf (State.reset.withFetchWord 64 0x0020000000000000).mem = true := by decide +kernel


/-! ### Witnesses: operands and results -/

/-- FPCTL enables INVALID, and an operation of the step has raised it in lane 3. -/
def trapping : State := pkg [{ warp0 with sp := { warp0.sp with fpctl := 1#32 }, step := { warp0.step with conds := [{ op := 0, bit := 0, lanes := 8#32 }] } }]
/-- A step with two buffered writes of one register. -/
def buffered : State := pkg [{ warp0 with step := { warp0.step with buf := [.scal 4 1#32, .scal 4 2#32], latches := [some (Lanes.splat 7#32)] } }]

theorem witness_DecodeOfEncode : (Instr.vmovi ⟨true, false, 255, .vec 0, 0xFFFFFFFF#32⟩).isNative = true ∧ (Instr.vmovi ⟨true, false, 255, .vec 0, 0xFFFFFFFF#32⟩).wellFormed = true ∧
    decode 0x18E02000FFFFFFFF#64 = .ok (.vmovi ⟨true, false, 4, .vec 0, 0xFFFFFFFF#32⟩) := ⟨by decide, by decide, rfl⟩
theorem witness_BytesReadBack : Memory.wf (State.reset.setBytes 5 [1#8, 0#8]).mem = true ∧ 4 < 5 ∧ 5 + [1#8, 0#8].length ≤ 7 := by decide +kernel
theorem witness_ResetState : let off (l : List Instr) : State := { State.reset with inputs := l }
    (off []).powered = false ∧ (off []).inputs = [] ∧ worksOff .inputFault = true ∧ (match step (off [.inputFault]) with | .next t => t.mc.badSince == some 0 | _ => false) = true ∧
    worksOff (.killRequest 0) = false ∧ (match step (off [.killRequest 0]) with | .next t => t.inputs.isEmpty | _ => false) = true := by decide +kernel
theorem witness_StepKeepsMemoryCanonical : Memory.wf (State.reset.withFetchWord 64 0x0020000000000000).mem = true ∧
    (match step (State.reset.withFetchWord 64 0x0020000000000000) with | .next t => Memory.wf t.mem | _ => false) = true := by decide +kernel
theorem witness_OperationEnds : one.atRest ∧ buffered.atRest ∧ (buffered.me.step.buf ++ ([.vec 3 1#32 []] : List Buf)).all Buf.isWrite = true ∧ (∀ c ∈ trapping.me.step.conds, one.me.sp.fpctl.getLsbD c.bit = false) := by decide +kernel
theorem witness_SourceKinds : buffered.me.step.latches[(0#2).toNat]? = some (some (Lanes.splat 7#32)) := by decide +kernel

/-- Each integer row has an operand list that is well-formed and readable. -/
theorem witness_IntegerVectorResults : (integerRows.all (fun p =>
    [op .i32 7 (.vec 1) (.vec 2) (.vec 0), op .n64 6 (.vec 2) (.lit 64) (.vec 0), op .i8x4 255 (.vec 1) (.nlit 0) (.vec 0), op .i32 7 (.vec 1) (.vec 2) (.vec 3), op .n32 7 (.vec 1) (.vec 0) (.vec 0),
      op .i8x4 7 (.vec 1) (.vec 0) (.vec 0)].any (fun o => (p.1 o).wellFormed && decide (one.readable (p.1 o) o.g)))) = true := by decide +kernel
theorem witness_IntegerDivision : (Instr.vdiv (op .i32 7 (.vec 1) (.nlit 127) (.vec 0))).wellFormed = true ∧ (Instr.vrem (op .n64 6 (.vec 2) (.lit 0) (.vec 0))).wellFormed = true ∧
    one.readable (.vdiv (op .i32 7 (.vec 1) (.nlit 127) (.vec 0))) .all ∧ one.readable (.vrem (op .n64 6 (.vec 2) (.lit 0) (.vec 0))) .all := by decide +kernel
theorem witness_CarryChains : (Instr.vaddc (op .n32 10 (.vec 2) (.vec 6) (.scal 504))).wellFormed = true ∧ (Instr.vsubb (op .n64 10 (.vec 2) (.vec 6) (.scal 511))).wellFormed = true ∧
    one.readable (.vaddc (op .n32 10 (.vec 2) (.vec 6) (.scal 504))) .all ∧ one.readable (.vsubb (op .n64 10 (.vec 2) (.vec 6) (.scal 511))) .all ∧ one.me.execSet .all ≠ 0#32 ∧ one.me.present.has 31 = true := by decide +kernel
theorem witness_IntegerSpecialResults : ([Instr.vmadw (op .i32 4 (.vec 1) (.vec 2) (.vec 6)), .vsad (op .i32 4 (.vec 1) (.vec 2) (.vec 3)), .vsat (op .i8x4 4 (.vec 1) (.vec 2) (.lit 0)), .vsat (op .n32 4 (.vec 1) (.vec 2) (.lit 1)),
    .vlea (op .n64 4 (.vec 2) (.vec 6) (.lit 7)), .vfunnel (op .n32 4 (.vec 1) (.vec 2) (.lit 63)), .vbfe (op .i32 4 (.vec 1) (.vec 2) (.vec 0)), .vbfi (op .n32 4 (.vec 1) (.vec 2) (.vec 3)),
    .vpermb (op .n32 4 (.vec 1) (.vec 2) (.vec 3))].all (fun i => i.wellFormed && decide (one.readable i .all))) = true := by decide +kernel
theorem witness_CompareSelectImmediate : ([Instr.vcmp (op .i32 505 (.vec 1) (.vec 2) (.lit 2)), .vcmp (op .n64 511 (.vec 2) (.vec 4) (.lit 5)), .vsel (op .i32 4 (.vec 1) (.vec 2) (.scal 504)), .vmovi ⟨true, false, 4, .vec 0, 1#32⟩,
    .vaddi ⟨true, false, 4, .vec 1, 0x80000000#32⟩].all (fun i => i.wellFormed && decide (one.readable i .all))) = true ∧ one.me.execSet .all ≠ 0#32 := by decide +kernel
theorem witness_ScalarResults : (scalarRows.all (fun p =>
    [op .i32 40 (.scal 16) (.scal 18) (.vec 0), op .n64 40 (.scal 16) (.vec 0) (.vec 0), op .n32 40 (.scal 16) (.vec 0) (.vec 0)].any (fun o => (p.1 o).wellFormed && decide (one.readable (p.1 o) o.g)))) = true ∧
    ([Instr.scmp (op .i32 502 (.scal 4) (.nlit 123) (.lit 2)), .ssel (op .i64 40 (.scal 4) (.scal 6) (.scal 20)), .smovi ⟨true, false, 40, .vec 0, 1#32⟩, .saddi ⟨true, false, 40, .scal 4, 1#32⟩].all
      (fun i => i.wellFormed && decide (one.readable i .all))) = true := by decide +kernel
/-- A present lane, and an absent one; subgroups of 1 and of 32 lanes. -/
theorem witness_LaneMovesAndVotes : ((Instr.slane (op .i32 40 (.vec 1) (.lit 31) (.vec 0))).wellFormed = true ∧ one.tagRead (.slane (op .i32 40 (.vec 1) (.lit 31) (.vec 0))) = none) ∧
    ([one, pkg [{ warp0 with present := 0xFFFF#32 }]].map (fun s => (decide (s.readable (.vput (op .i32 4 (.scal 16) (.lit 31) (.vec 0))) .all), s.me.execSet .all != 0#32, s.me.unexited.has 31)) = [(true, true, true), (true, true, false)]) ∧
    (Instr.vput (op .i32 4 (.scal 16) (.lit 31) (.vec 0))).wellFormed = true ∧
    ([Instr.vshfl (op .i32 4 (.vec 1) (.vec 2) (.lit 0x18)), .vshfl (op .i32 4 (.vec 1) (.vec 2) (.lit 5)), .vbcast (op .i32 4 (.vec 1) (.lit 5) (.scal 20))].map (fun i => i.wellFormed && decide (one.tagRead i = none))) = [true, true, true] ∧
    ([Instr.vballot (op .i32 4 (.vec 1) (.vec 0) (.lit 5)), .vmatch (op .i32 4 (.vec 1) (.vec 0) (.lit 5)), .vvote (op .i32 4 (.vec 1) (.vec 0) (.lit 0x0D))].map (fun i => i.wellFormed && decide (one.readable i .all))) = [true, true, true] := by decide +kernel

theorem witness_RoundingAndSpecialCases : (0 < (1 : Nat)) ∧ (Fmt.f32.width = 32 ∧ 0x3F800000 < 2 * Fmt.f32.signWeight ∧ (∃ s n d, decodeVal .f32 0x3F800000 = .fin s n d)) := ⟨by decide, by decide, by decide, _, _, _, rfl⟩
theorem witness_RoundingAndSpecialCases_finite : (XReal.fin true 3 2).finite ∧ (XReal.fin false 0 1).finite ∧ (∀ p ∈ [(XReal.fin true 3 2, XReal.fin false 1 3)], p.1.finite ∧ p.2.finite) :=
  ⟨⟨_, _, _, rfl, by decide⟩, ⟨_, _, _, rfl, by decide⟩, fun p hp => by
    rw [List.mem_singleton] at hp
    subst hp
    exact ⟨⟨_, _, _, rfl, by decide⟩, ⟨_, _, _, rfl, by decide⟩⟩⟩
theorem witness_FloatingArithmetic : (floatRows.all (fun p => [op .f32 7 (.vec 1) (.vec 2) (.vec 0), op .f64 6 (.vec 2) (.vec 4) (.vec 8), op .f16x2 7 (.vec 1) (.vec 0) (.vec 0)].any (fun o => (p.1 o).wellFormed && decide (one.readable (p.1 o) o.g)))) = true := by decide +kernel
theorem witness_FloatingSelectAndScale : ([Instr.vfmin (op .f32 7 (.vec 1) (.vec 2) (.vec 0)), .vfmax (op .f64 6 (.vec 2) (.vec 4) (.vec 0)), .vfminn (op .bf16x2 7 (.vec 1) (.vec 2) (.vec 0)), .vfmaxn (op .f32 7 (.vec 1) (.vec 2) (.vec 0)),
    .vfabs (op .f32 7 (.vec 1) (.vec 0) (.vec 0)), .vfneg (op .f64 6 (.vec 2) (.vec 0) (.vec 0)), .vfcmp (op .f32 505 (.vec 1) (.vec 2) (.lit 5)), .vfclass (op .f16x2 7 (.vec 1) (.vec 0) (.vec 0)),
    .vfldexp (op .f32 7 (.vec 1) (.lit 5) (.vec 0))].all (fun i => i.wellFormed && decide (one.readable i .all))) = true ∧ one.me.execSet .all ≠ 0#32 ∧ (-4000 ≤ (5 : Int) ∧ (5 : Int) ≤ 4000) := by decide +kernel
theorem witness_ApproximateFunctions : ([Instr.vfrcp, .vfrsq, .vfexp2, .vflog2, .vfsin, .vfcos].all (fun c => let o := op .f32 7 (.vec 1) (.vec 0) (.vec 0)
    (c o).wellFormed && decide (one.readable (c o) o.g))) = true := by decide +kernel
theorem witness_Conversions : ([Instr.vcvt (op .i32 3 (.vec 1) (.lit 0x53) (.lit 0)), .vcvt (op .i32 4 (.vec 2) (.lit 1) (.lit 0x0A)), .vcvt (op .i32 3 (.fc 2) (.lit 4) (.lit 0))].all (fun i => i.wellFormed && decide (one.readable i .all))) = true := by decide +kernel
/-- An allowed control word, and one that is not: no binary8 format. -/
theorem witness_BlockScaledPacking : ([op .f32 7 (.vec 1) (.lit 127) (.lit 0x10), op .f16x2 7 (.vec 1) (.lit 127) (.lit 0x0F)].map (fun o =>
      ((Instr.vpk8 o).wellFormed, decide (one.readable (.vpk8 o) o.g), (Instr.vupk8 o).wellFormed, decide (one.readable (.vupk8 o) o.g), (PackCtl.of (one.srcW o.s2 0) o.ty).bad))) =
    [(true, true, true, true, false), (true, true, true, true, true)] := by decide +kernel
theorem witness_DotProducts : ([Instr.vfdot2 (op .f16x2 7 (.vec 1) (.vec 2) (.vec 3)), .vfdot4 (op .i32 7 (.vec 1) (.vec 2) (.lit 8)), .vfdot4 (op .n32 7 (.vec 1) (.vec 2) (.lit 9)), .vfdot4 (op .f32 7 (.vec 1) (.vec 2) (.lit 0x10))].map
    (fun i => i.wellFormed && decide (one.readable i .all))) = [true, true, true, true] := by decide +kernel
theorem witness_ComplexArithmetic : ([Instr.vcmul (op .cf32 6 (.vec 2) (.vec 4) (.vec 0)), .vcfma (op .cf16 7 (.vec 1) (.vec 2) (.vec 3)), .vcabs2 (op .cf16 7 (.vec 1) (.vec 0) (.vec 0)), .vcconj (op .cf32 6 (.vec 2) (.vec 0) (.vec 0)),
    .vtwid (op .cf32 6 (.vec 1) (.lit 31) (.vec 0))].all (fun i => i.wellFormed && decide (one.readable i .all))) = true := by decide +kernel
theorem witness_Butterflies : ([Instr.vbfly2 (op .cf16 8 (.vec 1) (.vec 2) (.vec 3)), .vbfly4 (op .cf16 8 (.vec 12) (.vec 16) (.lit 1)), .vbfly4 (op .cf32 8 (.vec 16) (.vec 24) (.lit 0))].all (fun i => i.wellFormed && decide (one.readable i .all))) = true := by decide +kernel
/-- Subgroups of 1 and of 32 lanes. -/
theorem witness_ReduceScan : ([Instr.vreduce (op .f32 8 (.vec 4) (.vec 0) (.lit 2)), .vscan (op .i64 8 (.vec 4) (.vec 0) (.lit 0x8D))].all (fun i => i.wellFormed && decide (one.readable i .all))) = true ∧
    one.me.sgSize 0 = 2 ^ 0 ∧ one.me.sgSize 5 = 2 ^ 5 := by decide +kernel

/-! ### Single steps with results from the spec's tables -/

/-- Lane 0 of D after one operation on warp 0 with the vectors `a` in v1 and `b` in v2. -/
def runs (a b : Word) (i : Instr) : State → Option State := fun _ =>
  let w : Warp := { warp0 with regs := { vec := (List.range 32).map (fun l => (32 + l, a)) ++ (List.range 32).map (fun l => (64 + l, b)) } }
  match exec i (pkg [w]) with | .next t => some t | _ => none

/-- -8 / 0 is all ones with INT_DIV_ZERO (R113). -/
theorem test_div_by_zero : (runs 0xFFFFFFF8#32 0#32 (.vdiv (op .i32 7 (.vec 1) (.vec 2) (.vec 0))) one).map (fun t => ((t.warp 0).vword 7 0, (t.warp 0).sp.flags)) = some (0xFFFFFFFF#32, 32#32) := by decide +kernel
/-- The most negative value divided by -1 is itself (R113). -/
theorem test_div_overflow : (runs 0x80000000#32 0xFFFFFFFF#32 (.vdiv (op .i32 7 (.vec 1) (.vec 2) (.vec 0))) one).map (fun t => (t.warp 0).vword 7 31) = some 0x80000000#32 := by decide +kernel
/-- A shift by 32 gives 0 (R114). -/
theorem test_shift_by_width : (runs 1#32 32#32 (.vshl (op .n32 7 (.vec 1) (.vec 2) (.vec 0))) one).map (fun t => (t.warp 0).vword 7 0) = some 0#32 := by decide +kernel
/-- 1.0 + 2^-24 ties to the even 1.0, INEXACT (R98, R102). -/
theorem test_fadd_tie : (runs 0x3F800000#32 0x33800000#32 (.vfadd (op .f32 7 (.vec 1) (.vec 2) (.vec 0))) one).map (fun t => (t.warp 0).vword 7 0) = some 0x3F800000#32 := by decide +kernel
/-- The floating constants of R50, as FP32 codes. -/
theorem test_float_constants : [0, 1, 2, 6, 15, 16, 32, 50, 53, 56, 63].map (fconst .f32) =
    [0x00000000, 0x3F000000, 0x3F800000, 0xBF000000, 0x7F800000, 0x80000000, 0x40490FDB, 0xC1000000, 0x7FC00000, 0x00000001, 0x4F000000] := by decide +kernel


/-! ### Witnesses: control, special registers and traps -/

/-- Did the instruction complete in a state with this property? -/
def ran (r : Host.Outcome State Fault Refusal) (p : State → Bool) : Bool := match r with | .next t => p t | _ => false

/-- One warp changed. -/
def oneW (f : Warp → Warp) : State := pkg [f warp0]
/-- Scalar register 16 holds `x`. -/
def s16 (x : Word) : Warp := { warp0 with regs := { scal := [(16, x)] } }

theorem witness_BranchesAndSleep : one.closing ∧ ([Guard.all, .mask 0].all (fun g => decide (one.readable (.bra ⟨true, g, 1#32, .vec 0⟩) g) && decide (one.readable (.bri ⟨true, g, 0, .scal 16⟩) g) &&
      decide (one.readable (.ret ⟨true, g, 0, .vec 20⟩) g) && decide (one.readable (.call ⟨true, g, 4#32, .vec 20⟩) g))) = true ∧
    [one, pkg [s16 5#32]].map (fun s => (decide s.closing, decide (s.me.poisoned (.sleep (op .n64 0 (.scal 16) (.vec 0) (.vec 0))) s.me.step.issue = none), ran (exec (.sleep (op .n64 0 (.scal 16) (.vec 0) (.vec 0))) s) (fun t => (t.warp 0).wait == .ready))) =
      [(true, true, true), (true, true, false)] := by decide +kernel

/-- UserTrapEntry, the causes that go to the supervisor instead. -/
theorem witness_UserTrapEntry_supervisor : classOf cMISALIGNED = .user ∧ ({} : Warp).sp.trapvec.getLsbD 0 = false ∧
    State.reset.deliveryClass {} cMISALIGNED = .sup := by decide

/-- A step at `first` in code memory where the words `ws` stand from 0 and scalar 16 holds `n`. -/
def looping (n first : Word) (ws : List DWord) : State :=
  let s := (ws.zipIdx).foldl (fun (s : State) x => s.write (ppaLoc 0 (fetchPpa + 8 * x.2)) 8 x.1.toNat) (State.reset.withFetchWord 64 0)
  s.updWarp 0 (fun w => { w with regs := { scal := [(16, n)] }, step := { started := true, first := first, len := 8, issue := Mask.full } })
def loopOp (tgt : Word) (r : BitVec 9) : BOp := ⟨true, .all, tgt, .scal r⟩
def lendWord (tgt : Word) (r : BitVec 9) : DWord := encode (.lend (loopOp tgt r))
/-- What the LOOP at `first` with target `tgt` finds there, the reason of R262, and the cause that it takes. -/
def loopFinds (s : State) (tgt : Word) (p : LoopTarget) : Bool × Option Nat × Bool :=
  (s.probeStep 0 (s.me.target s.me.opAddr tgt) Mask.full == p, (match p with | .step ops _ => loopReason s.me (loopOp tgt 16) (s.me.target s.me.opAddr tgt) ops | _ => none),
    ran (exec (.loop (loopOp tgt 16)) s) (fun t => (t.warp 0).sp.tcause != 0#32))
theorem witness_CountedLoops : (let s := looping 3#32 0#32 [0#64, lendWord 0 16]; s.closing ∧ s.me.poisoned (.lend (loopOp 0 16)) Mask.full = none) ∧
    [0#32, 3#32].map (fun n => let s := looping n 0#32 [0#64, lendWord 0 16]; (decide s.closing && decide (s.me.poisoned (.loop (loopOp 1 16)) Mask.full = none) && s.me.target 8#32 0#32 == s.me.stepEnd && decide (s.me.opAddr.toNat < 8),
      loopFinds s 1 (.step [.lend (loopOp 0 16)] 8), ran (exec (.loop (loopOp 1 16)) s) (fun t => (t.warp 0).vpcAt 31 == if n = 0#32 then 16#32 else 8#32))) = [(true, (true, none, false), true), (true, (true, none, false), true)] := by decide +kernel
/-- Each cause that R262 gives the LOOP. -/
theorem witness_CountedLoops_causes :
    loopFinds (looping 3#32 0#32 [0#64, 0x0020000000000000#64]) 1 (.step [.nop (op .i32 0 (.vec 0) (.vec 0) (.vec 0))] 8) = (true, some 1, true) ∧
    loopFinds (looping 3#32 0#32 [0#64, 0xFFFFFFFFFFFFFFFF#64]) 1 .form = (true, none, true) ∧
    loopFinds (looping 3#32 0#32 [0#64, lendWord 0 17]) 1 (.step [.lend (loopOp 0 17)] 8) = (true, some 2, true) ∧
    loopFinds (looping 3#32 0#32 [0#64, lendWord 5 16]) 1 (.step [.lend (loopOp 5 16)] 8) = (true, some 3, true) ∧
    loopFinds (looping 3#32 8#32 [lendWord 2 16]) 0xFFFFFFFF#32 (.step [.lend (loopOp 2 16)] 8) = (true, some 4, true) ∧
    loopFinds (looping 3#32 0#32 []) 0x2000#32 (.cause cPAGE_ABSENT 0x10000#32 0#32) = (true, none, true) ∧ classOf cPAGE_ABSENT = .sup := by decide +kernel
/-- All lanes enrolled in m0. -/
def enrolledAll : State := oneW (fun w => { w with regs := { scal := [(500, 0xFFFFFFFF#32)] } })
theorem witness_LaneSets : (one.atRest ∧ one.me.step.buf = [] ∧ one.me.step.conds = []) ∧ one.readable (.exit ⟨true, .mask 1, 0#32, .vec 0⟩) (.mask 1) ∧ one.readable (.exit ⟨true, .all, 0#32, .vec 0⟩) .all ∧
    one.me.unexited &&& ~~~(one.me.execSet (.mask 1)) ≠ 0#32 ∧ one.me.unexited &&& ~~~(one.me.execSet .all) = 0#32 ∧ ((one.gangOf one.me).barrier 0).count = 0 ∧
    one.readable (.elect (op .i32 40 (.vec 0) (.vec 0) (.vec 0))) .all ∧ one.closing ∧ one.readable (.mjoin (op .i32 500 (.vec 0) (.vec 0) (.vec 0))) .all ∧ one.readable (.mleave (op .i32 511 (.vec 0) (.vec 0) (.vec 0))) .all ∧
    one.readable (.mwait (op .i32 0 (.scal 500) (.vec 0) (.vec 0))) .all ∧ one.me.execSet .all &&& ~~~(one.me.mreg 0) ≠ 0#32 ∧ enrolledAll.closing ∧
    enrolledAll.readable (.mwait (op .i32 0 (.scal 500) (.vec 0) (.vec 0))) .all ∧ enrolledAll.me.execSet .all &&& ~~~(enrolledAll.me.mreg 0) = 0#32 := by decide +kernel
theorem witness_SpecialRegisters : (one.launch (one.gang one.me.gang).launch).replay = false ∧ (one.atRest ∧ one.readable (.wrsr ⟨true, false, 0, .scal 4, 0x25#32⟩) .all) ∧ (one.quad one.me.quad).owner = none ∧
    (({ one with quads := [(0, { owner := some 5 })] } : State).quad 0).owner = some 5 := by decide +kernel
theorem witness_UserTrapEntry : let s := oneW (fun w => { w with sp := { w.sp with trapvec := 0x101#32 } })
    (s.warp 0).tryPort = none ∧ (s.warp 0).tryHeap = none ∧ classOf cMISALIGNED = .user ∧ classOf 63 = .user ∧ (s.warp 0).mode = .normal ∧ (s.warp 0).sp.trapvec.getLsbD 0 = true ∧ (s.warp 0).sp.kwslot < 16 := by decide +kernel
theorem witness_SupervisorTrapEntry : classOf cILLEGAL_OP = .user ∧ (one.warp 0).sp.trapvec.getLsbD 0 = false ∧ classOf cPAGE_ABSENT = .sup ∧ (one.warp 0).mode ≠ .sup ∧ (oneW (fun w => { w with mode := .sup })).me.mode = .sup ∧ (one.warp 0).tryPort = none ∧ (one.warp 0).tryHeap = none := by decide +kernel
theorem witness_FaultsCommitNothing : one.me.enabledConds = [] ∧ one.me.tryPort = none ∧ one.me.tryHeap = none ∧ (classOf cMISALIGNED = .user ∧ classOf cPAGE_ABSENT = .sup) ∧ trapping.me.tryPort = none ∧ trapping.me.tryHeap = none ∧
    (∃ c ∈ trapping.me.step.conds ++ [], trapping.me.sp.fpctl.getLsbD c.bit = true ∧ c.bit < 7) ∧ (∀ c ∈ trapping.me.step.conds ++ [], c.bit < 8) := by decide +kernel
theorem witness_TrapInstructions : one.closing ∧ one.me.step.issue ≠ 0#32 ∧ one.attached (one.ckOf one.me) = false ∧ (let s : State := { one with ctxs := [(0, { live := true, dbg := { session := some 0 } })] };
      s.closing ∧ s.attached (s.ckOf s.me) = true ∧ s.me.mode ≠ .sup) ∧ (oneW (fun w => { w with mode := .user })).me.mode = .user ∧
    (let s := oneW (fun w => { w with mode := .sup });
      s.me.mode = .sup ∧ s.me.rsS.wait = .ready ∧ (s.gangOf s.me).warps = [0] ∧ (s.warp 0).wait = .ready) ∧ one.me.mode = .normal := by decide +kernel
/-- The word placed for the first step: NOP, then the fetch and check of this word. -/
theorem witness_StepRunsDecoded : let s := State.reset.withFetchWord 64 0x0020000000000000
    let w := s.warp 0
    let i := Instr.nop (op .i32 0 (.vec 0) (.vec 0) (.vec 0))
    (s.powered = true ∧ s.nextTurn = some (.issue 0) ∧ ({ s with nextTurn := none } : State).pickWarp 0 = some 0 ∧ (s.launch (s.gangOf w).launch).trigger = none ∧ (s.launch (s.gangOf w).launch).replay = false ∧ w.step.started = false ∧
      w.issuePc = some 0#32 ∧ w.sp.kwslot = 0 ∧ w.bound = 0 ∧ (s.loopStep 0 0#32).isNone = true ∧ s.breakAt (s.ckOf w) 0 0#32 = false) ∧ s.fetch 0 0 0 w.isSup 0 8 = .ok [0, 0, 0, 0, 0, 0, 0x20, 0] ∧ (decode (wordOfBytes [0, 0, 0, 0, 0, 0, 0x20, 0])).toOption = some i ∧
      i.e = true ∧ (i.supervisor = false ∧ (i.reads ++ i.writes).all w.named = true ∧ i.latchReads = []) := by decide +kernel
/-- An image of one rule, one pattern without fields, one template of one NOP and one plane whose only entry has the control word `ctl`. -/
def guestImg (ctl : Nat) : List Byte :=
  List.replicate 16 0#8 ++ natBytes 8 0x101 ++ natBytes 4 0x30 ++ natBytes 4 0x38 ++ natBytes 4 0x90 ++ natBytes 4 0x78 ++ natBytes 8 0x80 ++
  natBytes 8 0 ++ List.replicate 64 0#8 ++ natBytes 8 0 ++ natBytes 8 0x0020000000000000 ++ natBytes 8 0 ++ natBytes 8 0 ++ natBytes 8 0 ++ natBytes 8 ctl
/-- The placed word read as guest code of slot 1. -/
def guest (ctl : Nat) : State :=
  ((State.reset.withFetchWord 64 0x1234).updWarp 0 (fun w => { w with sp := { w.sp with kwslot := 1 } })).updPart 0 (fun p => { p with slots := [(1, { valid := true, owner := 0, image := guestImg ctl })] })
theorem witness_GuestSteps : (let s := guest 0x800FFF; let w := s.warp 0; let img := ((s.part 0).slots.get 1).image
      w.isSup = false ∧ w.sp.kwslot ≠ 0 ∧ w.misplaced = false ∧ w.bound = 0 ∧ s.slotForeign (s.gangOf w).part (s.gangOf w).ctx 1 = false ∧ (s.cluster (quadCluster w.quad)).dcache = [] ∧
      s.fetch (quadCluster w.quad) (s.gangOf w).part (s.gangOf w).ctx false 0 2 = .ok [0x34, 0x12] ∧ imgLength img 0x1234 = some 2 ∧ imgMatch img 0x1234 = some (0, 0x800FFF) ∧
      0x800FFF % 4096 = 0xFFF ∧ (imgFields img 0 0x1234).find? (·.guard) = none) ∧
    (let s := guest 0x800000; let img := ((s.part 0).slots.get 1).image
      imgMatch img 0x1234 = some (0, 0x800000) ∧ (((s.beginGuest 0 0#32 Mask.full).warp 0).step.ops == [.nop (op .i32 0 (.vec 0) (.vec 0) (.vec 0))]) = true) ∧
    (∃ c k, (one.warp 0).checkOps [{ word := 0#64, badSub := true }] 0 [] = .error (c, k) ∧ classOf c = .user) ∧ fillSlot 0 .d ⟨true, 0, 255#32, false⟩ = some (255 * 2 ^ 43) ∧
    fillSlot 0 .d ⟨true, 0, 256#32, false⟩ = none ∧ fillSlot 0 (.s 0) ⟨true, 2, 0xFFFFFF80#32, false⟩ = some (1536 + 256) ∧ fillSlot 0 .data ⟨true, 4, 11#32, false⟩ = some (1023 * 2 ^ 43) := by
  refine ⟨by decide +kernel, by decide +kernel, ⟨_, _, rfl, rfl⟩, by decide +kernel, by decide +kernel, by decide +kernel, by decide +kernel⟩
theorem reset_memory_canonical : State.reset.memOk := rfl


/-! ### Witnesses: memory -/

/-- The state `one` with scratchpad page 0 and with operands: v1 holds 4 l in lane l, v2 holds 128 l. -/
def mem1 : State := { oneW (fun w => { w with regs := { vec := (List.range 32).map (fun l => (32 + l, BitVec.ofNat 32 (4 * l))) ++ (List.range 32).map (fun l => (64 + l, BitVec.ofNat 32 (128 * l))) } }) with tlb := scrTlb }
def okRefs : Chk → Option (List Nat) | .ok refs => some (refs.map LaneRef.lane) | _ => none
def ld (d : BitVec 9) (a : Src) (z : BitVec 3) : LdOp := ⟨true, false, d, a, 0, z, .rlx, .warp, .normal, false, false⟩
def st (x : Src) (a : Src) (z : BitVec 3) : StOp := ⟨true, x, a, 0, z, .rlx, .warp, .normal⟩

/-- The same with a spill stack, a TSO page of the host, and the launch alone in its ensemble. -/
def farMem : State :=
  { oneW (fun w => { w with sp := { w.sp with spillsize := 0x80000#32 }, regs := { vec := (List.range 32).map (fun l => (64 + l, BitVec.ofNat 32 (128 * l))) } }) with
    tlb := scrTlb ++ [(3 * 2 ^ 36, { leaf := 0xF200000000000000#64, size := 4096 }), (5 * 2 ^ 36, { leaf := 0xF000010000000000#64, size := 65536 }), (5 * 2 ^ 36 + 1, { leaf := 0xF000010000010000#64, size := 65536 })]
    launches := [(0, { live := true, cls := 1, ens := some 1 })], ens := [(1, { live := true, members := [(0, { live := true })] })] }
/-- Lane 0 misaligned; lane 31 beyond gang memory; lane 0 on a page that is not mapped; every check passed. -/
theorem witness_AccessChecks : (mem1.ea .scr (.vec 1) 1) 0 % 4 ≠ 0 ∧
    (let s := { mem1 with gangs := [(0, { place := .resident, warps := [0], gangSize := 0x80 })] }; let ea := s.ea .gang (.vec 1) 4
      (∀ l, l < 32 → ea l % 4 = 0) ∧ (piecesOf .gang (ea 31) 4).find? (s.outside .gang s.me) = some { va := 128, len := 4 } ∧ ∀ k, k < 31 → ∀ q ∈ piecesOf .gang (ea k) 4, s.outside .gang s.me q = false) ∧
    (let s := { mem1 with tlb := [] }; let ea := s.ea .scr (.vec 1) 0
      piecesOf .scr (ea 0) 4 = [] ++ { va := 0, len := 4 } :: [] ∧ s.place .scr s.me .read 0 { va := 0, len := 4 } = .cause cPAGE_ABSENT ∧ ∀ l, l < 32 → ∀ q ∈ piecesOf .scr (ea l) 4, s.outside .scr s.me q = false) ∧
    okRefs (mem1.check .scr .write 4 4 Mask.full false false (mem1.ea .scr (.vec 1) 0)) = some (List.range 32) := by decide +kernel
theorem witness_LoadsReadBytes : mem1.drained ∧ ([Instr.ldgng (ld 8 (.vec 1) 2), .ldscr (ld 8 (.vec 2) 2), .ldspl (ld 8 (.vec 1) 2), .lddom (ld 8 (.vec 2) 2), .ldhst (ld 8 (.vec 2) 2)].map (fun i => i.wellFormed && decide (mem1.me.poisoned i Mask.full = none))) =
      [true, true, true, true, true] ∧
    okRefs (mem1.check .gang .read 4 4 Mask.full false true (mem1.ea .gang (.vec 1) 0)) = some (List.range 32) ∧
    okRefs (mem1.check .scr .read 4 4 Mask.full false true (mem1.ea .scr (.vec 2) 0)) = some (List.range 32) ∧
    okRefs (farMem.check .spill .read 4 4 Mask.full false true (farMem.ea .spill (.vec 2) 0)) = some (List.range 32) ∧
    okRefs (farMem.check .dom .read 4 4 Mask.full false true (farMem.ea .dom (.vec 2) 0)) = some (List.range 32) ∧
    okRefs (farMem.check .host .read 4 4 Mask.full false true (farMem.ea .host (.vec 2) 0)) = some (List.range 32) := by decide +kernel
/-- Stores that perform at once, that are held back, and that are posted; the presence instructions. -/
theorem witness_StoresWriteBytes : mem1.drained ∧ mem1.sure true ∧ ({ mem1 with holds := [true] } : State).drained ∧ ({ mem1 with holds := [true] } : State).sure true ∧ mem1.holds.headD false = false ∧
    ([Instr.stspl (st (.vec 1) (.vec 2) 2), .stgng (st (.vec 1) (.vec 2) 2), .stscr (st (.vec 1) (.vec 2) 2), .stdom (st (.vec 1) (.vec 2) 2), .sthst (st (.vec 1) (.vec 2) 2), .pset (ld 0 (.vec 2) 7), .pclr (ld 0 (.vec 2) 7), .pqry (ld 8 (.vec 2) 7)].map
      (fun i => i.wellFormed && decide (mem1.me.poisoned i Mask.full = none))) = [true, true, true, true, true, true, true, true] ∧
    Order.isRel (st (.vec 1) (.vec 2) 2).ord = false ∧ (mem1.launch (mem1.gangOf mem1.me).launch).replay = false ∧
    ([(Space.spill, farMem), (.gang, mem1), (.scr, mem1), (.dom, farMem), (.host, farMem)].map (fun x => okRefs (x.2.check x.1 .write 4 4 Mask.full false false (x.2.ea x.1 (if x.1 == .gang then .vec 1 else .vec 2) 0)) == some (List.range 32))) = [true, true, true, true, true] ∧
    okRefs (mem1.check .scr .presSet 128 128 Mask.full false false (mem1.ea .scr (.vec 2) 0)) = some (List.range 32) ∧
    okRefs (mem1.check .scr .presQuery 128 128 Mask.full false false (mem1.ea .scr (.vec 2) 0)) = some (List.range 32) := by decide +kernel
def atm (d : BitVec 9) (a : BitVec 4) : AOp := ⟨true, false, d, .vec 2, .vec 1, .vec 0, a, .rlx, .part⟩
/-- Atomics in every space, and reductions on a page without and with TSO. -/
theorem witness_AtomicsEnterQueue : mem1.drained ∧ mem1.sure true ∧ farMem.drained ∧ farMem.sure true ∧ ([Instr.atmgng { atm 8 0 with scope := .gang }, .atmscr (atm 8 0), .atmdom (atm 8 0), .atmhst (atm 8 0), .redscr (atm 0 0), .reddom (atm 0 0)].map
      (fun i => i.wellFormed && decide (mem1.me.poisoned i Mask.full = none))) = [true, true, true, true, true, true] ∧
    ([(Space.gang, mem1), (.scr, mem1), (.dom, farMem), (.host, farMem)].map (fun x => okRefs (x.2.check x.1 .atomic 4 4 Mask.full false true (x.2.ea x.1 (if x.1 == .gang then .vec 1 else .vec 2) 0)) == some (List.range 32))) = [true, true, true, true] ∧
    ([(Space.scr, mem1), (.dom, farMem), (.scr, { mem1 with tlb := [(2 ^ 36, { leaf := 0xF200010000000000#64, size := 65536 })] })].map (fun x => match x.2.check x.1 .atomic 4 4 Mask.full false false (x.2.ea x.1 (.vec 2) 0) with
      | .ok refs => (true, tsoOf refs) | _ => (false, false))) = [(true, false), (true, false), (true, true)] ∧
    ran (exec (.atmscr (atm 8 0)) mem1) (fun t => t.portOps.length == 1) = true := by decide +kernel

/-- Two adds wait in a write queue: an atomic of two lanes whose old values belong to v8, and a reduction. -/
def queued : State := { oneW (fun w => { w with replies := [(7, { base := 8, n := 1, lanes := 3#32, held := true })] }) with
  mem := [(1000, 0xFF#8)], portOps := [(3, { live := true, space := 2, aop := 0, reply := some 7, lanes := [⟨0, 1000, 1, 0⟩, ⟨1, 1004, 5, 0⟩] }), (4, { live := true, space := 2, aop := 0, lanes := [⟨0, 2000, 1, 0⟩] })], nextUid := 9 }
theorem witness_MemoryPortPerforms : aopBytes 0 = 4 ∧ (255 < 2 ^ (8 * aopBytes 0)) ∧ queued.portFirst 3 = true ∧ queued.portFirst 4 = true ∧ (queued.portOps.get 3).reply = some 7 ∧ (queued.warp 0).replies.any (fun e => e.1 == 7) = true ∧
    (queued.portOps.get 4).reply = none ∧ aopFloat (queued.portOps.get 4).aop = false ∧ (∃ l, (queued.portOps.get 4).lanes = [l]) ∧ (queued.portOps.get 3).lanes.Pairwise (fun l k => l.loc + 4 ≤ k.loc ∨ k.loc + 4 ≤ l.loc) ∧ (queued.portOps.get 3).lanes.Pairwise (fun l k => l.lane ≠ k.lane) ∧ (queued.portOps.get 3).space ≠ 4 ∧
    ran (exec (.memportAtomic 3) queued) (fun t => t.read 1000 4 == 256 && t.read 1004 4 == 5 && t.read 1008 4 == 0 && (((t.warp 0).replies.get 7).vals.getD 0 []).at 0 == 255#32) = true ∧
    ran (exec (.memportReduction [4]) queued) (fun t => t.read 2000 4 == 1 && t.read 1000 4 == 255) = true :=
  ⟨by decide, by decide, by decide +kernel, by decide +kernel, by decide +kernel, by decide +kernel, by decide +kernel, by decide +kernel, ⟨_, rfl⟩, by decide +kernel, by decide +kernel, by decide +kernel, by decide +kernel, by decide +kernel⟩
theorem witness_FencesAndGeneration : (one.closing ∧ one.me.step.buf = [] ∧ (one.cluster (quadCluster one.me.quad)).gen < 65535 ∧ one.drained ∧ one.acks = []) ∧ queued.closing ∧ (queued.ownOps queued.actor).any (· < queued.nextUid) = true ∧ (([⟨true, false, 0, .rel, .part, false⟩, ⟨true, false, 0, .ar, .sys, true⟩] : List FenceOp).map (fun o => Order.isRel o.ord)) = [true, true] ∧
    ran (exec (.fence ⟨true, false, 4, .acq, .part, true⟩) one) (fun t => (t.cluster 0).gen == 1 && (t.warp 0).sword 4 == 0#32) = true ∧ ran (exec (.fence ⟨true, false, 0, .rel, .part, false⟩) queued) (fun t => (t.warp 0).wait == .fence) = true := by decide +kernel

/-- A warp that waits as `x` says, its step closed with a fence, a load's value ready for v8, one whose access failed, and a status ready for s20. -/
def waiting (x : Wait) : State := { oneW (fun w => { w with wait := x, waited := 2048, step := { closed := true, buf := [.fence .rel .part false none 0] }, replies := [(1, { base := 8, n := 1, lanes := Mask.full, vals := [Lanes.splat 7#32], have_ := true, held := true }),
    (2, { base := 9, n := 1, lanes := Mask.full, have_ := true, held := true, fails := [(0, cREPLY_LOST)] }), (3, { vec := false, base := 20, n := 2, lanes := Mask.full, vals := [Lanes.splat 5#32, Lanes.splat 6#32], have_ := true, held := true })] }) with
    acks := [(5, { live := true, flags := 1 })] }
theorem witness_WaitsEnd : ((waiting .fence).warp 0).live = true ∧ (waiting .fence).frozen 0 = false ∧ (waiting .fence).midStep 0 = false ∧ ((waiting .fence).launch 0).replay = false ∧
    ran (exec (.loadReply 0 1 Mask.full) (waiting .ready)) (fun t => (t.warp 0).vword 8 31 == 7#32) = true ∧ ran (exec (.loadReply 0 2 1#32) (waiting .ready)) (fun t => ((t.warp 0).regs.vtag.get (32 * 9)).cause == cREPLY_LOST) = true ∧
    ran (exec (.loadReply 0 3 Mask.full) (waiting .ready)) (fun t => (t.warp 0).sword 20 == 5#32 && (t.warp 0).sword 21 == 6#32) = true ∧ (((waiting .ready).warp 0).replies.get 2).fails.get 0 ≠ 0 ∧ (((waiting .ready).warp 0).replies.get 3).fails.get 31 = 0 ∧
    (({ waiting (.line 3) with lines := [(3, .failed)] } : State).lines.get 3 ≠ .absent) ∧ (∀ c ∈ ((waiting (.batch 15)).warp 0).batches.get 15, c.done = true) ∧ (waiting (.reject 4)).oldestRejected 0 = some 0 ∧
    ({ waiting (.sleep 0 1) with phc := 2 ^ 20 } : State).deadlinePassed 0 1 = true ∧ (oneW (fun w => { w with waited := 2048, step := {} })).guardPick 0 = some 0 ∧ (waiting .fence).fencesOk 0 = true ∧ ((waiting .fence).gang 0).halted = false ∧
    ((waiting .fence).gang 0).wdPend = false ∧ ((waiting .fence).warp 0).unexited ≠ 0#32 ∧
    ran (exec (.fenceSatisfied 0) (waiting .fence)) (fun t => (t.warp 0).wait == .ready && (t.warp 0).sp.steps == 1) = true ∧ (((waiting .fence).acks.get 5).live = true) := by decide +kernel
/-- A warp parked on line 3, which became present; and the fence that ends. -/
theorem witness_WaitsEnd_more : (let s := (waiting (.line 3)).updWarp 0 (fun w => { w with woken := [(3, .present)] }); (s.warp 0).wait = .line 3 ∧ (s.warp 0).woken.any (fun x => x.1 == 3) = true ∧ ran (exec (.parkWake 0) s) (fun t => (t.warp 0).wait == .ready) = true) ∧
    (let s := waiting .fence; (s.warp 0).wait = .fence ∧ (s.warp 0).step.closed = true ∧ (s.warp 0).step.buf = [.fence .rel .part false none 0] ∧ (s.warp 0).owes = [] ∧ s.seenHost 0 = [] ∧ (s.warp 0).step.conds = [] ∧ (s.warp 0).stepping = false ∧
      (s.warp 0).tryPort = none ∧ (s.warp 0).tryHeap = none ∧ s.heldStores.all (fun e => !e.2.seenBy 0 (quadCluster (s.warp 0).quad)) = true) := by decide +kernel
/-- Code page 0 of context 0 is mapped and not yet checked. -/
theorem witness_WaitsEnd_page : let s := (State.reset.withFetchWord 64 0).updCtx 0 (fun c => { c with codePages := [(0, .unverified)] })
    (s.ctx 0).live = true ∧ (s.ctx 0).codePages.get 0 = .unverified ∧ s.translateAt controlUnit 0 0 .code .fetch true 0 = .ok fetchPpa false ∧ 0 < 0xF000 := by decide +kernel

/-- Two warps, the second waiting at barrier 1, where one arrival is due; `bal` bytes are due too. -/
def meeting (n : Word) (bal : Int) : State := let s := pkg [s16 n, { warp0 with wait := .barrier 1 Mask.full 0#32 0x48#32, step := {} }]
  { s with gangs := [(0, { place := .resident, warps := [0, 1], gangSize := 0x10000, barriers := [(1, { count := 2, arrived := 1, balance := bal })] })] }
/-- The last arrival, with no bytes due, with bytes due and with an excess. -/
theorem witness_BarriersAndSignals : let s := meeting 2#32 0; let o := op .i32 0 (.lit 1) (.scal 16) (.vec 0)
    (s.closing ∧ s.me.step.buf = [] ∧ s.drained ∧ s.me.execSet .all ≠ 0#32 ∧ ((s.gangOf s.me).warps.all (fun v => (s.warp v).wait == .ready || (s.warp v).wait == .barrier 1 Mask.full 0#32 0x48#32)) = true) ∧ s.readable (.barsync o) .all ∧ s.readable (.bararv o) .all ∧
    ((s.gang 0).barrier 1).count = 2 ∧ (s.srcW o.s1 0).toNat = 2 ∧ ran (exec (.barsync o) s) (fun t => ((t.gang 0).barrier 1).phase == 1#32 && (t.warp 1).wait == .ready) = true ∧
    [(-16 : Int), 16].map (fun b => let s := meeting 2#32 b; (decide s.closing && decide s.drained, ran (exec (.barsync o) s) (fun t => if b < 0 then (t.warp 0).wait == .barrier 1 Mask.full 0#32 0x48#32 else (t.warp 0).sp.tcause == BitVec.ofNat 32 cBARRIER_BROKEN))) =
      [(true, true), (true, true)] := by decide +kernel
/-- A first arrival; each refused one; BARBYTES and BARQRY. -/
theorem witness_BarriersAndSignals_rest : let o := op .i32 0 (.lit 1) (.scal 16) (.vec 0)
    (let s := pkg [s16 2#32, warp0]; s.closing ∧ s.readable (.barsync o) .all ∧ ((s.gang 0).barrier 1).count = 0 ∧ ran (exec (.barsync o) s) (fun t => ((t.gang 0).barrier 1).arrived == 1 && (t.warp 0).wait == .barrier 1 Mask.full 0#32 0x48#32) = true) ∧
    (let s := pkg [s16 0#32, warp0]; s.closing ∧ (s.liveWarps 0).length = 2 ∧ ran (exec (.bararv (op .i32 0 (.vec 0) (.scal 16) (.vec 0))) s) (fun t => ((t.gang 0).barrier 0).arrived == 1) = true) ∧
    ([(meeting 1#32 0, op .i32 0 (.lit 1) (.scal 16) (.vec 0)), (meeting 3#32 0, o), (meeting 1#32 0, op .i32 0 (.lit 0) (.scal 16) (.vec 0))].map (fun x => ran (exec (.barsync x.2) x.1) (fun t => (t.warp 0).sp.tcause == BitVec.ofNat 32 cBARRIER_MISMATCH))) =
      [true, true, true] ∧
    (meeting 2#32 0).readable (.barbytes o) .all ∧ ((pkg [s16 2#32]).gang 0).barrier 1 = {} ∧ (pkg [s16 2#32]).closing ∧ (meeting 2#32 0).readable (.barqry (op .i64 40 (.lit 1) (.vec 0) (.vec 0))) .all := by decide +kernel
/-- Port 65535, resident and signalled, and the mailbox. -/
def porty (p : Port) : State := { pkg [{ warp0 with regs := { scal := [(16, 65535#32), (17, 0x80000000#32), (18, 3#32)] } }] with ports := [(portKey 0 65535, p)], ctxs := [(0, { live := true, mboxUser := true })] }
theorem witness_Signal : let s := porty { valid := true, sigen := true, resident := true }; let away := porty { valid := true, sigen := true }; let o := op .i32 0 (.scal 16) (.scal 18) (.vec 0); let q := op .i32 0 (.scal 17) (.scal 18) (.vec 0)
    s.closing ∧ s.drained ∧ s.me.execSet .all ≠ 0#32 ∧ s.readable (.signal o) .all ∧ (s.srcW o.s0 0).toNat = 65535 ∧ s.srcW o.s1 0 ≠ 0#32 ∧ (s.port (portKey 0 65535)).wake = 0#32 ∧ ran (exec (.signal o) s) (fun t => (t.port (portKey 0 65535)).wake == 3#32) = true ∧
    away.closing ∧ away.drained ∧ away.missCount 0 < 1024 ∧ away.olderRejected kENGINE = false ∧ ran (exec (.signal o) away) (fun t => (t.port (portKey 0 65535)).buffered.length == 1) = true ∧
    (s.srcW q.s0 0).toNat = 2 ^ 31 ∧ (s.ctx 0).mboxUser = true ∧ s.olderRejected kENGINE = false ∧ (s.part 0).mailbox.length < s.caps.mailbox ∧ ran (exec (.signal q) s) (fun t => (t.part 0).mailbox.length == 1) = true ∧
    (let d := op .i32 0 (.lit 255) (.scal 18) (.vec 0); ran (exec (.signal d) s) (fun t => (t.warp 0).sp.tcause == BitVec.ofNat 32 cPORT_INVALID) = true) ∧ 0x10000 / 65536 % 2 ^ 15 ≠ 0 ∧
    ran (exec (.signal o) (porty {})) (fun t => (t.warp 0).sp.tcause == BitVec.ofNat 32 cPORT_INVALID) = true ∧ ran (exec (.signal o) (porty { valid := true, quar := true })) (fun t => (t.warp 0).sp.tcause == BitVec.ofNat 32 cPORT_INVALID) = true ∧
    ran (exec (.signal o) (porty { valid := true })) (fun t => (t.warp 0).sp.tcause == BitVec.ofNat 32 cSIGNAL_DENIED) = true ∧ (({ s with ctxs := [(0, { live := true })] } : State).ctx 0).mboxUser = false ∧ s.me.mode ≠ .sup := by decide +kernel

/-! ### Witnesses: matrix units and copies -/

/-- A warp with Q = 1 on a quadrant of its context, its blocks in the scalars from 40, the scratchpad mapped. -/
def mat (ws : List Word) : State := { pkg [{ warp0 with q := 1, regs := { scal := ws.zipIdx.map (fun x => (40 + x.2, x.1)) } }] with
  gangs := [(0, { place := .resident, warps := [0], gangSize := 0x10000, cores := 1 })], tlb := scrTlb, quads := [(0, { owner := some 0, live := 1, queue := [.fill 2 true] })] }
def mx (f : BitVec 6) (x : BitVec 19) : XOp := ⟨true, false, 8, .scal 40, f, 0#6, false, x⟩
def mx0 (x : BitVec 19) : XOp := ⟨true, false, 0, .vec 0, 0#6, 0#6, false, x⟩
def mmaOp : XOp := ⟨true, false, 0, .scal 40, 3#6, 3#6, false, 0⟩
/-- One block: RB = CB = KB = 1, A from v0, B dense at 0. -/
def mmaState : State := mat [0x111#32, 0#32, 0#32, 4#32, 0#32]
def oks : Chk → Bool | .ok _ => true | _ => false

theorem witness_MatrixInstructions : (mmaState.drained ∧ mmaState.sure true ∧ mmaState.olderRejected kENGINE = false ∧ mmaState.attached (mmaState.ckOf mmaState.me) = false ∧ mmaState.closing ∧ mmaState.me.enabledConds = [] ∧ (mmaState.quad (mmaState.memberQuad mmaState.me 0)).owner = some 0 ∧ (mmaState.quad 0).queue.length < 16 ∧ [0, 1, 3].all (fun k => !(mmaState.quad 0).poisonedAt k) = true ∧ mmaState.memberQuad mmaState.me 0 = 0 ∧ mmaState.me.q = 1 ∧ (MatOp.fill 2 true).src = none) ∧
    (Instr.mgroup (mx0 4)).wellFormed = true ∧ mmaState.gangQuad mmaState.me + XOp.q (mx0 4) ≤ 4 * (mmaState.gangOf mmaState.me).cores ∧ (mmaState.gangQuad mmaState.me + XOp.q (mx0 4) - 1) / 4 - mmaState.gangQuad mmaState.me / 4 ≤ 2 ∧ (Instr.accz (mx0 0x3F)).wellFormed = true ∧ (Instr.accfree (mx0 0x4001)).wellFormed = true ∧
    (Instr.accwr (xop 0 (.vec 0) 0x64)).wellFormed = true ∧ (Instr.mma mmaOp).wellFormed = true ∧ mmaState.me.poisoned (.mma mmaOp) Mask.full = none ∧ mmaShape mmaState.me mmaOp = none ∧ mmaState.me.poisonIn Mask.full ((mmaReads mmaState.me mmaOp).take 1) = none ∧ mmaState.me.poisonIn Mask.full ((mmaReads mmaState.me mmaOp).drop 2) = none ∧ mmaScaleNan mmaState.me mmaOp = 0#32 ∧ (XOp.blkWord mmaState.me mmaOp 4).toNat < 2 ^ 24 ∧
    oks (mmaState.matCheck .gang .read false true ((List.range 32).map (fun k => { row := 0, va := mmaBaddr mmaState.me mmaOp 0 k, len := 64 }))) = true ∧
    (List.range 32).all (fun k => mmaBaddr mmaState.me mmaOp 0 k % 128 + 64 ≤ 128) = true ∧
    [exec (.mgroup (mx0 4)) mmaState, exec (.accz (mx0 0x3F)) mmaState, exec (.accwr (xop 0 (.vec 0) 0x64)) mmaState, exec (.mma mmaOp) mmaState].map (fun r => ran r (fun t => (t.warp 0).sp.steps == 1)) = [true, true, true, true] := by decide +kernel
def accState : State := mat [0#32, 128#32, 0#32]
theorem witness_MatrixAccess : accState.drained ∧ accState.sure true ∧ accState.holds.headD false = false ∧ ([Instr.accld ⟨true, false, 0, .scal 40, 0#6, 0#6, false, 0⟩, .accst ⟨true, false, 0, .scal 40, 0#6, 0#6, false, 0⟩, .accrd ⟨true, false, 32, .vec 0, 0#6, 0#6, false, 0⟩].all (fun i =>
      i.wellFormed && decide (accState.me.poisoned i Mask.full = none))) = true ∧ accMisaligned accState.me ⟨true, false, 0, .scal 40, 0#6, 0#6, false, 0⟩ = none := by decide +kernel
/-- The rows of a segment image are all in reach, for a read as for a write. -/
theorem witness_MatrixAccess_rows : ([Access.read, .write].map (fun k => match accState.matCheck .scr k true (k == .read) (accAccesses accState.me ⟨true, false, 0, .scal 40, 0#6, 0#6, false, 0⟩) with
    | .ok refs => (refs.length, decide ((refs.map (fun r => r.locs.headD 0)).Nodup)) | _ => (0, false))) = [(32, true), (32, true)] := by decide +kernel
/-- The same in supervisor mode, the page a supervisor's. -/
def supState (ws : List Word) : State := { mat ws with
  warps := [(0, { warp0 with mode := .sup, q := 1, regs := { scal := ws.zipIdx.map (fun x => (40 + x.2, x.1)) } })], tlb := [(2 ^ 36, { leaf := 0xF400010000000000#64, size := 65536 })] }
theorem witness_MatrixSegments : (mmaState.quad 0).queue = .fill 2 true :: [] ∧ (accState.selectQuad accState.me 0#32).toOption = some 0 ∧ (Instr.accown (op .i32 8 (.lit 0) (.nlit 127) (.vec 0))).wellFormed = true ∧
    accState.readable (.accown (op .i32 8 (.lit 0) (.nlit 127) (.vec 0))) .all ∧ accState.srcW (.nlit 127) 0 = 0xFFFFFFFF#32 ∧
    ((supState [0#32, 128#32, 0#32]).drained ∧ (supState [0#32, 128#32, 0#32]).sure true ∧ (supState [0#32, 128#32, 0#32]).olderRejected kENGINE = false) ∧ ((supState []).quad 0).segPoison = 0 ∧ ((supState []).quad 0).live = 1 ∧
    (Instr.accspill (xop 8 (.scal 40) 0)).wellFormed = true ∧ (Instr.accfill (xop 8 (.scal 40) 0)).wellFormed = true ∧
    ran (exec (.accown (op .i32 8 (.lit 0) (.nlit 127) (.vec 0))) accState) (fun t => (t.quad 0).owner == none && (t.warp 0).sword 8 == 0#32 && (t.warp 0).sword 9 == 1#32) = true := by decide +kernel
theorem witness_MatrixSegments_reach : [Access.supWrite, .supRead].map (fun k => oks ((supState []).matCheck .scr k false (k == .supRead) (segLines 0 1))) = [true, true] := by decide +kernel


/-- A template of 32 FP32 elements in a row, HBM page 0 to the scratchpad. -/
def rowTmpl : List Word := [0x80000000#32, 0#32, 0#32, 0#32, 32#32, 1#32, 1#32, 1#32, 0#32, 0#32, 0#32, 0#32, 0#32, 0#32, 31#32, 0#32]
def scrHbm : Map TlbEntry := [(2 ^ 36, { leaf := 0xF000010000000000#64, size := 65536 }), (2 ^ 37, { leaf := 0xF000010000010000#64, size := 65536 })]
/-- The same entries in the structures of the cluster and of the copy engine. -/
def twoTlb : Map TlbEntry := [0, 40].flatMap (fun un => scrHbm.map (fun e => (un * 2 ^ 48 + e.1, e.2)))
def copyState : State := { mat [0#32, 0#32, 0#32, 0#32, 0#32, 0#32, 0#32, 0#32, 0#32, 0xFFFFFFFF#32] with ctxs := [(0, { live := true, tmpls := [(0, rowTmpl)] })], tlb := twoTlb }
/-- A broadcast of 32 FP32 elements from the launch's own rank. -/
def collState : State := mat [3#32, 9#32, 256#32, 0#32, 32#32, 0xFFFFFFFF#32]
theorem witness_CopyInstructions : (copyState.attached 0 = false ∧ copyState.drained ∧ copyState.sure true ∧ copyState.olderRejected kENGINE = false ∧ copyState.engineLoad (quadSection copyState.me.quad) < copyState.caps.copyQ ∧
      collState.attached 0 = false ∧ collState.drained ∧ collState.sure true ∧ collState.olderRejected kENGINE = false ∧ collState.engineLoad 0 < collState.caps.copyQ) ∧ ([Instr.copy (xop 30 (.scal 40) 0), .coll (xop 30 (.scal 40) 0)].all (fun i => i.wellFormed && decide (copyState.me.poisoned i Mask.full = none))) = true ∧
    copyReason 0#32 0xFFFFFFFF#32 rowTmpl = none ∧ copyReason 4095#32 31#32 rowTmpl = none ∧ copyState.pageFail .write ((tileElems rowTmpl [0#32, 0#32, 0#32] [0#32, 0#32, 0#32, 0#32]).map Elem.near) = none ∧ copyState.copiesOut copyState.actor < 256 ∧ copyState.engineLoad 0 < copyState.caps.copyQ ∧
    ran (exec (.copy (xop 30 (.scal 40) 0)) copyState) (fun t => t.copies.length == 1) = true ∧ collReason (xop 30 (.scal 40) 0) (collState.collRanks none) 3 256 0 32 0xFFFFFFFF = none ∧ collState.pageFail .read (rangeVas 256 128) = none ∧ collState.pageFail .write (rangeVas 0 128) = none ∧
    ran (exec (.coll (xop 30 (.scal 40) 0)) collState) (fun t => t.colls.length == 1) = true := by decide +kernel
/-- Batch 3 complete, and with one copy out. -/
def batchState (done : Bool) : State := pkg [{ warp0 with batches := [(3, [{ copy := 1, done := done }])] }]
theorem witness_Batches : (batchState true).closing ∧ ((batchState true).srcW (.lit 3) 0).toNat % 16 = 3 ∧ ((batchState true).me.batches.get 3).all CopyRef.done = true ∧ ((batchState false).me.batches.get 3).all CopyRef.done = false ∧
    one.me.poisoned (.cwait (op .i32 4 (.lit 3) (.vec 0) (.vec 0))) Mask.full = none ∧ ran (exec (.cpoll (op .i32 4 (.lit 3) (.vec 0) (.vec 0))) (batchState true)) (fun t => (t.warp 0).sword 4 == 0x80010000#32) = true ∧
    ran (exec (.cwait (op .i32 4 (.lit 3) (.vec 0) (.vec 0))) (batchState false)) (fun t => (t.warp 0).wait == .batch 3) = true := by decide +kernel
/-- A row of copy 1 with line 0 still to land; with it landed; an own-rank broadcast whose source is readable, and one that a peer's end aborted. -/
def engine (landed : List Nat) (aborted : Bool) : State := { copyState with
  ports := [(portKey 0 7, { valid := true, resident := true, depth := 2 })],
  copies := [(1, { live := true, tmpl := rowTmpl, layout := [0#32, 0#32, 0#32], origin := [0#32, 0#32, 0#32, 0#32], pages := [(0, 2 ^ 40)], landed := landed, bytes := 128 * landed.length, bar := some 3 })],
  lines := [(2 ^ 33, .absent), (2 ^ 33 + 2, .present)], mem := [(2 ^ 40 + 65536 + 4, 7#8), (2 ^ 40 + 256, 9#8)],
  colls := [(2, { live := true, kind := 3, efmt := 0#6, afmt := 0#6, count := 32, src := 256, dst := 0, srcPages := [(0, 2 ^ 40)], dstPages := [(0, 2 ^ 40)], dstBytes := 128, aborted := aborted })] }
theorem witness_CopyEvents : ((engine [] false).copies.get 1).early = [] ∧ (engine [] false).attached 0 = false ∧ ((engine [] false).copies.get 1).hits = [] ∧ ((engine [] false).colls.get 2).hits = [] ∧ ((engine [] false).launch 0).replay = false ∧
    ((engine [] false).colls.get 2).result = none ∧ ((engine [] false).colls.get 2).landed = [] ∧ (engine [] false).holds.headD false = false ∧ ((engine [0] false).gang 0).halted = false ∧ (engine [] false).canLand 1 0 = true ∧ (engine [] false).frozen 0 = false ∧ (engine [] false).lines.get ((((engine [] false).copies.get 1)).lineKey 0) = .absent ∧
    ran (exec (.copyLineLand 1 0) (engine [] false)) (fun t => t.byte (2 ^ 40 + 4) == 7#8 && t.lines.get (2 ^ 33) == .present) = true ∧
    (let s := engine [0] false; let j := s.copies.get 1; j.work.all j.landed.contains = true ∧ s.copyFirst 1 = true ∧ s.canFinishCopy j = true ∧ ((s.gang 0).barrier 3).count = 0 ∧ (s.gang 0).place = .resident ∧
      ran (exec (.copyComplete 1) s) (fun t => ((t.gang 0).barrier 3).balance == 128) = true) ∧
    (let s := { engine [] false with tlb := scrTlb }; s.copyFailure (s.copies.get 1) = some cPAGE_ABSENT ∧ ran (exec (.copyFail 1 false) s) (fun t => t.lines.get (2 ^ 33) == .failed) = true) ∧
    (let s := engine [] false; let j := s.colls.get 2; s.collReady j = true ∧ s.collReadable j 1 = true ∧ 65536 % elemBytes j.efmt = 0 ∧ ran (exec (.collComplete 2 []) s) (fun t => t.byte (2 ^ 40) == 9#8 && t.byte (2 ^ 40 + 256) == 9#8) = true) ∧
    ran (exec (.collPeerAbort 2) (engine [] true)) (fun t => t.byte (2 ^ 40) == 0#8 && t.lines.get (2 ^ 33) == .present && !(t.colls.get 2).live) = true := by decide +kernel
theorem witness_CopyEvents_sum : (∀ v ∈ [some 0xFFFFFFFF, none, some 1], ∀ x, v = some x → x < 2 ^ 32) ∧ (collElem 0x04#6 0x04#6 0 [some 0xFFFFFFFF, none, some 1]).1 = 0 := ⟨by decide, by decide +kernel⟩
/-- The same copy with a message for port 7, and the aborted collective with one unit of its line written. -/
theorem witness_CopyEvents_ends : let e := engine [0] false; let j := e.copies.get 1;
    (let s := { e with copies := [(1, { j with tmpl := [0x80400000#32, 7#32] ++ rowTmpl.drop 2, bar := none })] };
      tmPortEn (s.copies.get 1).tmpl = true ∧ (s.copies.get 1).work.all (s.copies.get 1).landed.contains = true ∧ s.copyFirst 1 = true ∧ s.canFinishCopy (s.copies.get 1) = true ∧ 0 < (s.port (portKey 0 7)).free ∧
      ran (exec (.copyComplete 1) s) (fun t => (t.port (portKey 0 7)).msgs.map Message.kind == [3]) = true) ∧
    (let s := engine [] true; let s := { s with colls := [(2, { s.colls.get 2 with landed := [0] })] };
      s.collReady (s.colls.get 2) = true ∧ 1 ∈ (s.colls.get 2).left ∧ ran (exec (.collPeerAbort 2) s) (fun t => t.lines.get (2 ^ 33) == .failed && !(t.colls.get 2).live) = true) := by decide +kernel

/-! ### Witnesses: ports, patterns, timers and heaps -/

/-- Context 0 with pattern 0 over port 7 (a wake handler), a warp's block in the scalars from 40. -/
def join (ws : List Word) (p : Port) (x : Pattern) : State := { mat ws with ports := [(portKey 0 7, p)], pats := [(0, x)], tlb := twoTlb, parts := [(0, { live := true, nsec := 1 })], phc := 2 ^ 16 }
def port7 : Port := { valid := true, sigen := true, resident := true, depth := 2 }
def wakePat (armed : Bool) : Pattern := { words := [7#32, 0#32, 0#32, 0#32, 0x90000000#32, 0#32, 0#32, 0#32], armed := armed }
def sendBlk : List Word := [7#32, 0#32, 0x1000#32, 16#32, 1#32, 2#32, 3#32]
def timeBlk : List Word := [7#32, 0#32, 0#32, 1000#32, 0#32, 0#32, 0#32, 0#32, 0#32, 0#32]
theorem witness_PortInstructions : let s := join sendBlk port7 (wakePat true); let full := join sendBlk { port7 with msgs := [{}, {}] } (wakePat true)
    s.olderRejected kENGINE = false ∧ s.sure true ∧ s.unitQ.get (s.port (portKey 0 7)).home < s.caps.unitQ ∧ s.unitQ.get (s.patHome 0 (s.pat 0)) < s.caps.unitQ ∧ s.unitQ.get (timerUnit 0) < s.caps.unitQ ∧ (s.port (portKey 0 7)).fullFor s.actor = false ∧ (full.port (portKey 0 7)).fullFor full.actor = true ∧ s.closing ∧ s.drained ∧ full.closing ∧ ([Instr.send (xop 0 (.scal 40) 0), .send (xop 0 (.scal 40) 1), .sendmem (xop 30 (.scal 40) 2), .sendmem (xop 30 (.scal 40) 0), .timepost (xop 20 (.scal 40) 0), .timepostCancel (xop 20 (.scal 40) 1),
      .jwait (xop 24 (.scal 40) 0)].map (fun i => i.wellFormed && decide (s.me.poisoned i Mask.full = none))) = [true, true, true, true, true, true, true] ∧
    (s.port (portKey 0 7)).fullFor 0 = false ∧ (full.port (portKey 0 7)).fullFor 0 = true ∧ XOp.f (xop 0 (.scal 40) 1) = true ∧ XOp.f (xop 0 (.scal 40) 0) = false ∧
    ran (exec (.send (xop 0 (.scal 40) 0)) s) (fun t => (t.port (portKey 0 7)).msgs.length == 1) = true ∧ ran (exec (.send (xop 0 (.scal 40) 1)) full) (fun t => (t.warp 0).sp.tcause == BitVec.ofNat 32 cPORT_FULL) = true ∧
    ran (exec (.send (xop 0 (.scal 40) 0)) full) (fun t => (t.warp 0).wait == .sender (portKey 0 7)) = true ∧ s.rangeFail .read 0 16 = none ∧ s.rangeFail .write 0x1000 16 = none ∧
    ran (exec (.sendmem (xop 30 (.scal 40) 2)) s) (fun t => t.sends.length == 1) = true := by decide +kernel
theorem witness_PortInstructions_rest : let s := join (0#32 :: timeBlk.drop 1) port7 (wakePat true); let q := join timeBlk port7 (wakePat false)
    s.jwaitReason s.me 0 24 = none ∧ ran (exec (.jwait (xop 24 (.scal 40) 0)) s) (fun t => (t.pat 0).waiters == [0]) = true ∧ q.freeTimer 0 = some 0 ∧ ran (exec (.timepost (xop 20 (.scal 40) 0)) q) (fun t => ((t.part 0).timers.get 0).period == 1000) = true ∧
    (let o := op .i32 20 (.lit 7) (.vec 0) (.vec 0); (Instr.portqry o).wellFormed = true ∧ q.me.poisoned (.portqry o) Mask.full = none ∧ ran (exec (.portqry o) q) (fun t => (t.warp 0).sword 20 == 0x20200#32) = true) ∧
    (let o := op .i32 5 (.lit 0) (.lit 3) (.vec 0); (Instr.patarm o).wellFormed = true ∧ (q.pat 0).valid = true ∧ q.patMalformed 0 (q.pat 0) = false ∧ (q.pat 0).isWake = true ∧ (s.pat 0).armed = true ∧ (q.armedIn 0).length < 512 ∧
      ran (exec (.patarm o) q) (fun t => (t.pat 0).armed && (t.pat 0).once && (t.warp 0).sword 5 == 0#32) = true) ∧
    ({ q with parts := [(0, { live := true, nsec := 1, timers := (List.range 256).map (fun h => (h, { live := true })) })] } : State).freeTimer 0 = none := by decide +kernel

theorem witness_JoinEvents : (let s := join [] { port7 with resident := false, buffered := [{}] } {}; let x := s.port (portKey 0 7)
      x.buffered ≠ [] ∧ x.parked = [] ∧ x.msgs.length + x.heldSlots + x.buffered.length ≤ x.depth ∧ s.roomFor x.home x.depth = true ∧ ran (exec (.portSwapIn 0 7) s) (fun t => (t.port (portKey 0 7)).resident && (t.port (portKey 0 7)).msgs.length == 1) = true) ∧
    (let s := { join [] { port7 with parked := [0] } {} with warps := [(0, { warp0 with wait := .sender (portKey 0 7), step := {} })] }; s.senderDue (portKey 0 7) = some 0) ∧
    (let s := { join [] port7 {} with parts := [(0, { live := true, nsec := 1, timers := [(3, { live := true, port := 7, ns := 1, period := 1000 })] })] }; s.deadlinePassed 0 1 = true ∧ (s.port (portKey 0 7)).parked.length < (s.port (portKey 0 7)).free ∧
      ran (exec (.timerPost 0 3) s) (fun t => (t.port (portKey 0 7)).msgs.length == 1 && ((t.part 0).timers.get 3).ns == 1001) = true) ∧
    (let s := { join [] port7 {} with sends := [(5, { live := true, port := 7, dst := 128, stage := [1#8, 2#8] })] }; (List.range 2).map (fun i => s.scrLoc (s.sends.get 5).cluster 0 .write false (128 + i)) = [2 ^ 40 + 128, 2 ^ 40 + 129].map some ∧ (s.sends.get 5).bad = [] ∧ s.attached 0 = false ∧
      ran (exec (.sendmemComplete 5) s) (fun t => t.byte (2 ^ 40 + 129) == 2#8 && (t.port (portKey 0 7)).msgs.length == 1) = true) := by decide +kernel
/-- A waiter of pattern 0 and one message at port 7; and a launch handler, its descriptor one gang of one warp. -/
def firing : State := { join [] { port7 with msgs := [{ seq := 9#32 }] } { wakePat true with waiters := [0] } with warps := [(0, { warp0 with wait := .jwait 0 24 Mask.full 0x48#32, step := {} })] }
def oneGang : List Word := [0x80400000#32, 1#32, 0#32, 0#32, 0#32, 0#32, 0#32, 0#32, 0#32, 0x01010001#32] ++ List.replicate 22 0#32
/-- Scratchpad page 0 of context 0 mapped by tables, as the control cores walk them, with the rights `r`. -/
def walked (r : Nat) (s : State) : State :=
  { ((s.write (ppaLoc 0 0x2000) 8 (2 ^ 63 + 0x3000)).write (ppaLoc 0 0x3000) 8 (r * 2 ^ 56 + 2 ^ 40)).updCtx 0 (fun c => { c with roots := [(1, 0x2001)] }) with owners := [(0, 0x41), (2 ^ 24, 1)] }
def launching : State := walked 0xF0 { join [] { port7 with msgs := [{ seq := 9#32 }] } { words := [7#32, 0#32, 0#32, 0#32, 0x80000001#32, 0#32, 0#32, 0#32], armed := true } with ctxs := [(0, { live := true, descs := [(1, oneGang)] })] }
theorem witness_PatternFire : (firing.fireChoice 0).isSome = true ∧ (firing.pat 0).once = false ∧ (firing.pat 0).isWake = true ∧ (firing.pat 0).ports.Nodup ∧
    ran (exec (.patternFire 0) firing) (fun t => (t.warp 0).sword 24 == 9#32 && (t.port (portKey 0 7)).msgs.length == 0 && (t.warp 0).wait == .ready) = true ∧
    firing.fireChoice 0 = some (0, [0]) ∧ ((firing.warp 0).wait = .jwait 0 24 Mask.full 0x48#32) ∧ launching.fireChoice 0 = some (0, [0]) ∧ (launching.pat 0).once = false ∧ (launching.pat 0).isWake = false ∧
    (launching.pat 0).rsv = false ∧ ((launching.consume 0).passOver 0 [0]).admissionReason 0 0 oneGang 1 0 = none ∧ ran (exec (.patternFire 0) launching) (fun t => t.launches.length == 2) = true := by decide +kernel

/-- The launch pattern 0 not armed, its descriptor with a standing reservation for `n` gangs and RGANGS `r`. -/
def arming (n r : Word) : State := { launching with pats := [(0, { words := [7#32, 0#32, 0#32, 0#32, 0x80000001#32, 0#32, 0#32, 0#32] })], ctxs := [(0, { live := true, descs := [(1, [0x80500000#32, n, 0x400000#32, 0#32, 0#32, 0#32, r, 0#32, 0#32, 0x01010001#32] ++ List.replicate 22 0#32)] })] }
/-- A place for the reservation, none for five gangs of a whole cluster each, no count of gangs; a poisoned source; a SENDMEM and a PATARM in their units' room. -/
theorem witness_PatternsArmed : ([arming 1#32 0#32, arming 5#32 0#32, arming 0#32 0#32].map (fun s => let p := s.pat 0; let d := (s.ctx 0).descs.get p.desc
      p.valid && !p.armed && !s.patMalformed 0 p && !p.isWake && dsRsv d && decide ((s.armedIn (s.patHome 0 p)).length < 512) && p.ports.all (fun q => (s.port (portKey 0 q)).resident) && decide (s.unitQ.get (s.patHome 0 p) < s.caps.unitQ))) = [true, true, true] ∧
    (arming 1#32 0#32).reserve 0 = some [{ place := { core := 8, assign := [0, 1, 2, 3] }, slots := [0] }] ∧ (arming 5#32 0#32).reserve 0 = none ∧ dsGangs (((arming 0#32 0#32).ctx 0).descs.get 1) = 0 ∧ dsRgangs (((arming 0#32 0#32).ctx 0).descs.get 1) = 0 ∧
    (let s := { join [] port7 {} with sends := [(5, { live := true, port := 7, dst := 128, stage := [1#8, 2#8], bad := [1] })] }; (s.sends.get 5).bad ≠ [] ∧ ran (exec (.sendmemComplete 5) s) (fun t => t.byte (2 ^ 40 + 129) == 0#8 && (t.port (portKey 0 7)).msgs.length == 0) = true) := by decide +kernel

/-- Heap 3 of context 0 with `es`, an operation waiting in its unit. -/
def heapState (es : Map HeapEntry) (ops : List HeapOp) : State := { mem1 with heaps := [(heapKey 0 3, { valid := true, termd := false, cap := 4, entries := es })], heapQ := [(0, ops)] }
def popOp : HeapOp := { kind := .pop, warp := 0, gang := 0, heap := 3, lanes := [(0, 0, 0#32)], reply := 1, behind := [] }
theorem witness_HeapInstructions : let s := heapState [(5, .queued 0x40000000#32)] []; let e := heapState [] []
    s.drained ∧ s.sure true ∧ s.me.execSet .all ≠ 0#32 ∧ s.me.sp.fpctl = 0#32 ∧ s.me.execSet (.mask 1) = 0#32 ∧ decide (s.readable (.heapput { op .i32 0 (.lit 3) (.vec 1) (.vec 2) with g := .mask 1 }) (.mask 1)) = true ∧ ([Instr.heapput (op .i32 0 (.lit 3) (.vec 1) (.vec 2)), .heapdone (op .i32 0 (.lit 3) (.vec 1) (.vec 0)), .gainadd (op .i32 0 (.lit 3) (.vec 1) (.vec 2)),
      .heappop false (op .i32 10 (.lit 3) (.vec 0) (.vec 0)), .heapdrain (op .i32 10 (.lit 3) (.vec 0) (.vec 0)), .heapsum (op .i32 10 (.lit 3) (.vec 0) (.vec 0)), .heappop true (op .i32 10 (.lit 3) (.vec 0) (.vec 0))].map
      (fun i => i.wellFormed && decide (s.readable i .all))) = [true, true, true, true, true, true, true] ∧ heapLaneFlags .put 4 0x400 = 0 ∧ (s.popsBefore 0 3 (s.heapView 3)).length < (s.heapView 3).count ∧ (e.heapView 3).count ≤ (e.popsBefore 0 3 (e.heapView 3)).length ∧ (e.heapView 3).termd = false ∧ s.olderRejected kENGINE = false ∧ e.me.enabledConds = [] ∧ heapKey (s.ckOf s.me) 3 = 3 ∧ (s.heapQ.get 0).length < s.caps.heapQ ∧
    ({ s with heaps := [(heapKey 0 3, { valid := true, termd := true, cap := 4 })] } : State).heapView 3 = { valid := true, termd := true, cap := 4 } ∧
    ran (exec (.heapput (op .i32 0 (.lit 3) (.vec 1) (.vec 2))) s) (fun t => (t.heapQ.get 0).length == 1) = true ∧ ran (exec (.heappop true (op .i32 10 (.lit 3) (.vec 0) (.vec 0))) e) (fun t => (t.warp 0).wait == .popper 3) = true := by decide +kernel
theorem witness_HeapUnit : let s := heapState [(5, .queued 0x40000000#32), (9, .queued 0x40000000#32)] [popOp]; let h := s.heaps.get 3
    s.heapQ.get 0 = popOp :: [] ∧ s.heapPick [] [popOp] = some popOp ∧ s.heapHeld 0 = false ∧ (s.heaps.get 3).valid = true ∧ ran (exec (.heapUnitApply 0) s) (fun t => (t.heaps.get 3).entry 5 == .flight 0x40000000#32 0#32 0) = true ∧ Map.wf h.entries = true ∧ 0 < h.count ∧ h.entry 6 = .absent ∧
    h.count + h.inflight < h.cap ∧ ({ h with cap := 2 } : Heap).cap ≤ h.count + h.inflight ∧ ({ h with entries := [(5, .flight 1#32 2#32 0)] } : Heap).entry 5 = .flight 1#32 2#32 0 := by decide +kernel
/-- The gang's end completes its entry in flight. -/
theorem witness_HeapUnit_retire : let s := heapState [(5, .flight 1#32 0#32 0)] [{ popOp with kind := .retire, lanes := [] }]
    (s.heaps.get 3).valid = true ∧ Map.wf (s.heaps.get 3).entries = true ∧ ((s.heaps.get 3).flightOf 0).length = 1 ∧ (s.heapPick [] (s.heapQ.get 0)).isSome = true ∧ s.heapHeld 0 = false ∧ ran (exec (.heapUnitApply 0) s) (fun t => (t.heaps.get 3).entry 5 == .absent) = true := by decide +kernel
/-- Every other kind of operation applied to the heap of one queued entry; the pop that ends a heap below TOL, with its message; the insertion that finds no room. -/
theorem witness_HeapUnit_kinds : ([(HeapOpKind.put, 5, 0x41000000#32), (.add, 5, 0x40000000#32), (.done, 5, 0#32), (.drain, 0, 0#32), (.sum, 0, 0#32)].map (fun x =>
      let o := { popOp with kind := x.1, lanes := [(0, x.2.1, x.2.2)] }; let s := heapState [(5, .queued 0x40000000#32)] [o]
      (s.heapPick [] (s.heapQ.get 0) == some o && !s.heapHeld 0, ran (exec (.heapUnitApply 0) s) (fun t => (t.heapQ.get 0).length == 0 && (t.heaps.get 3).entry 5 == (match x.1 with | .put | .add => HeapEntry.queued (if x.1 == .put then 0x41000000#32 else 0x40800000#32) | .drain => .absent | _ => .queued 0x40000000#32))))) =
      [(true, true), (true, true), (true, true), (true, true), (true, true)] ∧
    (let o := { popOp with kind := .drain }; let s := { heapState [(5, .queued 0x40000000#32)] [o] with heaps := [(3, { valid := true, termd := false, cap := 4, tport := 7, tol := 0x40000000#32, resid := 2 ^ 97, entries := [(5, .queued 0x40000000#32)] })], ports := [(portKey 0 7, port7)] }
      (s.heaps.get 3).doDrain.heap.terminated = true ∧ (s.heaps.get 3).termd = false ∧ (s.port (portKey 0 7)).resident = true ∧ ran (exec (.heapUnitApply 0) s) (fun t => (t.port (portKey 0 7)).msgs.map Message.kind == [5]) = true) ∧
    (let o := { popOp with kind := .put, lanes := [(0, 6, 0x40000000#32)] }; let s := { heapState [] [o] with heaps := [(3, { valid := true, cap := 1, entries := [(5, .queued 0x40000000#32)] })] }
      (((s.heaps.get 3).doPut 6 0x40000000#32).full = some 6) ∧ (s.ctx 0).ring.length < 256 ∧ ran (exec (.heapUnitApply 0) s) (fun t => (t.ctx 0).ring.length == 1 && (t.heaps.get 3).inexact) = true) ∧
    (0x3F800000#32 : Word).toNat < 2 ^ 31 ∧ (0x3F800000#32 : Word).toNat / 2 ^ 23 < 255 ∧ tr96 0x3F800000#32 = 2 ^ 96 ∧ (gainSum 0x7F7FFFFF#32 0x7F7FFFFF#32) = (gMax, true) ∧
    (let h : Heap := { cap := 1, entries := [(5, .flight 1#32 0x40000000#32 0), (6, .queued 1#32)] }; h.cap < h.count + h.inflight ∧ (h.doDone 5).full = some 5 ∧ h.baddone < 256 ∧ h.inflight < 2 ^ 21) := by decide +kernel
theorem witness_HeapPopper : ({ heapState [(5, .queued 1#32)] [] with warps := [(0, { warp0 with wait := .popper 3, step := {} })], heaps := [(3, { valid := true, termd := false, cap := 4, entries := [(5, .queued 1#32)], parked := [0] })] } : State).popperDue (heapKey 0 3) = some 0 := by decide +kernel


/-! ### Witnesses: keyways and the supervisor's operations -/

/-- A minimal image of R65 to R69: one rule, one pattern, one empty plane, 32 lanes wide. -/
def imgHead : List Byte := [0x4B, 0x57, 0x41, 0x59, 1, 0, 1, 0x20, 1, 0, 0, 0, 0, 0, 0, 0, 1, 1, 1, 0, 0, 0, 0, 0, 64, 0, 0, 0, 72, 0, 0, 0, 0x88, 0, 0, 0, 0, 0, 0, 0, 0, 0, 0, 0, 0x88, 0x18]
def minImage : List Byte := imgHead ++ List.replicate 6234 0#8
def imgCells : List (Nat × Byte) := (imgHead.zipIdx.filter (fun x => x.1 != 0#8)).map (fun x => (2 ^ 40 + x.2, x.1))
/-- Supervisor mode, the image at code address 0, the blocks in the scalars from 40, the partition's slots as given. -/
def kw (ws : List Word) (slots : Map KeySlot) : State := { mat ws with
  warps := [(0, { warp0 with mode := .sup, regs := { scal := ws.zipIdx.map (fun x => (40 + x.2, x.1)) } })], mem := imgCells,
  tlb := [(0, { leaf := 0xF800010000000000#64, size := 65536 }), (2 ^ 36, { leaf := 0xF000010000000000#64, size := 65536 })], ctxs := [(0, { live := true, objLen := [(0, 0x10000)], codePages := [(0, .verified)] })], parts := [(0, { live := true, nsec := 1, slots := slots })] }
theorem minImage_header : imgHeaderOk minImage 6280 = true ∧ minImage.length = 6280 ∧ imgLen minImage = 6280 := by decide +kernel
theorem minImage_read : (kw [] []).readCode 0 0 0 64 = .ok (minImage.take 64) ∧ imgLen (minImage.take 64) = 6280 ∧ 0 % 2 ^ 28 + 6280 ≤ ((kw [] []).ctx 0).objLen.get (objOf 0) := by decide +kernel

theorem get_below (m : Map Byte) (a : Nat) (h : ∀ p ∈ m, p.1 < a) : Map.get m a = 0#8 := by
  induction m with
  | nil => rfl
  | cons p m ih =>
    obtain ⟨j, b⟩ := p
    have := h (j, b) List.mem_cons_self
    simp only [Map.get]
    rw [if_neg (by simp at this; omega)]
    exact ih (fun q hq => h q (List.mem_cons_of_mem _ hq))
theorem minImage_bytes : (kw [] []).bytes (2 ^ 40) 6280 = minImage := by
  have h : ∀ p ∈ imgCells, p.1 < 2 ^ 40 + 46 := by decide +kernel
  have e1 : (List.range 46).map (fun i => (kw [] []).byte (2 ^ 40 + i)) = imgHead := by decide +kernel
  have e2 : ((List.range 6234).map (46 + ·)).map (fun i => (kw [] []).byte (2 ^ 40 + i)) = List.replicate 6234 0#8 := by
    rw [List.eq_replicate_iff]
    refine ⟨by simp only [List.length_map, List.length_range], fun b hb => ?_⟩
    simp only [List.map_map, List.mem_map, List.mem_range, Function.comp] at hb
    obtain ⟨i, -, rfl⟩ := hb
    refine get_below imgCells _ (fun p hp => ?_)
    have := h p hp
    omega
  rw [State.bytes, show (6280 : Nat) = 46 + 6234 from rfl, List.range_add, List.map_append, e1, e2, minImage]
theorem minImage_whole : (kw [] []).readCode 0 0 0 6280 = .ok minImage := by
  have h : (kw [] []).readCode 0 0 0 6280 = .ok ((kw [] []).bytes (2 ^ 40) 6280 ++ []) := by rfl
  rw [h, List.append_nil, minImage_bytes]
theorem bytesNat_zeros (k : Nat) : bytesNat (List.replicate k 0#8) = 0 := by
  induction k with
  | zero => rfl
  | succ k ih => simp [List.replicate_succ, bytesNat, ih]
theorem minImage_zero (off n : Nat) (h : 46 ≤ off) : imgNat minImage off n = 0 := by
  rw [imgNat, minImage, List.drop_append, List.drop_of_length_le (show imgHead.length ≤ off from h)]
  rw [List.nil_append, List.drop_replicate, List.take_replicate, bytesNat_zeros]
theorem minImage_rules : imgOffence minImage = none := by
  have r : imgRules minImage = 64 ∧ imgPats minImage = 72 ∧ imgPlanes minImage = 136 ∧ imgNat minImage 6 1 = 1 ∧ imgNtmpls minImage = 0 ∧ imgNops minImage = 0 := by decide +kernel
  have h1 : ∀ i, ruleBad minImage i = false := fun i => by
    simp only [ruleBad, r.1, minImage_zero (64 + 8 * i) 8 (by omega), r.2.2.2.1]; rfl
  have h2 : ∀ i, descBad minImage i = false := fun i => by
    simp only [descBad, imgDesc, r.2.1, minImage_zero (72 + 8 * i) 8 (by omega)]; rfl
  have h3 : ∀ i, planeBad minImage i = false := fun i => by
    simp only [planeBad, r.2.2.1, minImage_zero (136 + 24 * i + 16) 8 (by omega)]; rfl
  simp [imgOffence, offenceAt, r.2.2.2.2.1, r.2.2.2.2.2, firstSome, funext h1, funext h2, funext h3]
theorem witness_goodImage : (kw [] []).goodImage 0 6280 minImage := ⟨minImage_read.2.2, by decide, minImage_header.1, minImage_rules, _, minImage_read.1, by decide +kernel, by decide, by decide, by decide, minImage_whole⟩
def slot3 (gen : Byte) : Map KeySlot := [(3, { valid := true, owner := 0, image := imgHead.set 8 gen })]
theorem witness_KeywaysAndSupervisorOps : let s := kw [3#32, 0#32, 6280#32] (slot3 2); let e := kw [3#32, 0#32, 6280#32] []
    s.drained ∧ s.me.enabledConds = [] ∧ s.heldStores = [] ∧ s.closing ∧ s.jobsFull = false ∧ (Instr.kwsel (op .i32 20 (.lit 3) (.vec 0) (.vec 0))).wellFormed = true ∧ s.me.poisoned (.kwsel (op .i32 20 (.lit 3) (.vec 0) (.vec 0))) Mask.full = none ∧ s.slotForeign 0 0 3 = false ∧ s.slotWidth 0 3 = s.slotWidth 0 0 ∧
    Mask.full = s.me.unexited &&& ~~~s.me.held ∧ ran (exec (.kwsel (op .i32 20 (.lit 3) (.vec 0) (.vec 0))) s) (fun t => (t.warp 0).sp.kwslot == 3 && (t.warp 0).sword 20 == 0#32) = true ∧
    ([Instr.kwload (xop 8 (.scal 40) 0), .kwswap (op .i32 8 (.lit 3) (.scal 41) (.scal 42)), .kwinv (op .i32 8 (.lit 3) (.vec 0) (.vec 0)), .tlbinv (op .i32 6 (.lit 1) (.scal 4) (.lit 0)), .wipe (xop 10 (.scal 40) 0), .wipe (xop 10 (.scal 40) 2)].map
      (fun i => i.wellFormed && decide (s.me.poisoned i Mask.full = none))) = [true, true, true, true, true, true] ∧ (s.part 0).slots.get 3 ≠ (e.part 0).slots.get 3 ∧ ((s.part 0).slots.get 3).oldValid = false ∧ e.slotForeign 0 0 3 = true ∧
    (s.me.sword 40).toNat = 3 ∧ (s.srcW (.scal 42) 0).toNat = 6280 ∧ imgGen minImage ≠ imgGen ((s.part 0).slots.get 3).image ∧
    ran (exec (.kwinv (op .i32 8 (.lit 3) (.vec 0) (.vec 0))) s) (fun t => ((t.part 0).slots.get 3).valid == false) = true ∧ ran (exec (.tlbinv (op .i32 6 (.lit 1) (.scal 4) (.lit 0))) s) (fun t => t.tlb.length == 1) = true := by decide +kernel
theorem witness_Kwret : let s := { kw [] (slot3 2) with warps := [(0, { warp0 with mode := .emu, sp := { warp0.sp with tmask := Mask.full, tinfo := 0x340#32, tpc := 0x100#32 } })] }
    s.closing ∧ s.slotForeign 0 0 3 = false ∧ Mask.full = s.me.sp.tmask &&& ~~~s.me.exited ∧ ([Instr.kwret (op .i32 0 (.vec 20) (.vec 0) (.vec 0)), .kwret (op .i32 0 (.lit 0) (.vec 0) (.vec 0))].map (fun i => i.wellFormed && decide (s.me.poisoned i Mask.full = none))) = [true, true] ∧
    ran (exec (.kwret (op .i32 0 (.lit 0) (.vec 0) (.vec 0))) s) (fun t => (t.warp 0).vpcAt 5 == 0x104#32 && (t.warp 0).mode == .normal) = true := by decide +kernel
/-- One page of the scratchpad, and a range of gang memory. -/
theorem witness_Wipe : (let s := kw [0#32, 0#32, 65536#32] []; 0 + 65536 ≤ 2 ^ 32 ∧ s.translate 0 0 .scr .write true 0 = .ok (2 ^ 40) false ∧ ran (exec (.wipe (xop 10 (.scal 40) 0)) s) (fun t => t.jobs.length == 1) = true) ∧
    (let s := kw [128#32, 0#32, 256#32] []; 128 + 256 ≤ (s.gangOf s.me).gangSize ∧ ran (exec (.wipe (xop 10 (.scal 40) 2)) s) (fun t => t.jobs.length == 1) = true) := by decide +kernel
/-- A warp that runs in slot 3, its image about to be swapped, and one still bound to the image before. -/
theorem witness_KeywaysBound : let run (slots : Map KeySlot) (b : Nat) : State := { kw [] slots with warps := [(0, { warp0 with mode := .sup, sp := { warp0.sp with kwslot := 3 }, bound := b })] }
    (let s := run (slot3 2) 0; s.residentWarp (s.warp 0) = true ∧ s.partOf (s.warp 0) = 0 ∧ s.ckOf (s.warp 0) = s.ckOf s.me ∧ (s.warp 0).sp.kwslot = 3) ∧
    (let s := run [(3, { valid := true, owner := 0, image := imgHead.set 8 2, oldValid := true, oldImage := imgHead })] 3; ((s.part 0).slots.get 3).oldValid = true ∧ s.slotBound 0 3 = true) := by decide +kernel
def withJob (k : JobKind) : State := { queued with jobs := [(5, { live := true, kind := k, val := 0#32, ranges := [(1000, 128)] })] }
/-- A WIPE whose bytes are cleared already, and one whose are not; no store or load is out. -/
theorem witness_wiped : ((withJob .wipe).jobs.get 5).wiped = false ∧ (withJob .wipe).heldStores = [] ∧ (withJob .wipe).warps.all (fun e => e.2.replies.all (fun r => r.2.late.isEmpty && !r.2.acq && !r.2.bump)) = true ∧
    (let s : State := { withJob .wipe with jobs := [(5, { live := true, kind := .wipe, wiped := true, ranges := [(1000, 128)] })] }; s.jobReady 5 = true ∧ ran (exec (.wipeCompletion 5) s) (fun t => t.byte 1000 == 0xFF#8 && t.jobs.length == 0) = true) := by decide +kernel
theorem witness_jobs : [JobKind.keyway, .tlbinv, .wipe].map (fun k => (withJob k).jobReady 5) = [true, true, true] ∧ (withJob .tlbinv).allEnded ((withJob .tlbinv).jobs.get 5).waits = true ∧
    ran (exec (.wipeCompletion 5) (withJob .wipe)) (fun t => t.byte 1000 == 0#8 && t.jobs.length == 0) = true := by decide +kernel


/-! ### Witnesses: scheduling, kills, errors, the mailbox and contexts -/

/-- Launch 1 of one gang waits in the queue of partition 0; gang memory of 4 MiB and priority 1 where `big`. -/
def bigGang (prio : Word) : List Word := [0x80400000#32 ||| (prio <<< 24), 1#32, 0x400000#32, 0#32, 0#32, 0#32, 0#32, 0#32, 0#32, 0x01010001#32] ++ List.replicate 22 0#32
def waitingLaunch : State := { powered := true, parts := [(0, { live := true, nsec := 1 })], ctxs := [(0, { live := true })], launches := [(1, { live := true, cls := 1, gangs := 1, words := oneGang, msgs := [1#8, 2#8] })], nextUid := 5 }
/-- Four gangs of priority 0 fill the section. -/
def fullSection : State := { waitingLaunch with
  launches := [(0, { live := true, cls := 1, gangs := 4, started := 4, words := bigGang 0 }), (1, { live := true, cls := 1, gangs := 1, words := bigGang 1, prio := 1 })],
  gangs := [(10, { place := .resident, admitted := 10 }), (11, { place := .resident, coreBase := 8, admitted := 11 }), (12, { place := .resident, coreBase := 16, admitted := 12 }), (13, { place := .resident, coreBase := 24, admitted := 13 })] }
theorem witness_SchedulingEvents : waitingLaunch.queueHead 0 = some 1 ∧ waitingLaunch.demand 1 = some (.start 1) ∧ waitingLaunch.takePlaces 1 = waitingLaunch ∧ waitingLaunch.demandPlaces 0 1 (.start 1) [] [] 0 = some [({ core := 0, assign := [0, 1, 2, 3] }, none)] ∧ (waitingLaunch.launch 1).haltNew = false ∧ (waitingLaunch.part 0).dump = none ∧
    ran (exec (.gangAdmission 0) waitingLaunch) (fun t => (t.launch 1).started == 1 && t.gangs.length == 1 && t.warps.length == 1) = true := by decide +kernel
theorem witness_SchedulingEvents_victim : fullSection.queueHead 0 = some 1 ∧ fullSection.takePlaces 1 = fullSection ∧ fullSection.demand 1 = some (.start 1) ∧ fullSection.demandPlaces 0 1 (.start 1) [] [] 0 = none ∧
    fullSection.victims 0 1 (.start 1) (((fullSection.gangs.keys).filter (fullSection.preemptible 1)).foldl (fun a g => fullSection.insertVictim g a) []) [] = some [13] ∧
    ran (exec (.gangAdmission 0) fullSection) (fun t => (t.gang 13).place == .stopping && (t.gang 12).place == .resident) = true := by decide +kernel
/-- A stopping gang with a reply still out, its drain run out; a resident one whose watchdog is due. -/
def lateGang : State := { oneW (fun w => { w with step := {}, replies := [(7, { base := 8, n := 1, lanes := 3#32, held := true })] }) with gangs := [(0, { place := .stopping, warps := [0] })], clock := 3200 }
def dogGang : State := { oneW (fun w => { w with step := {} }) with gangs := [(0, { place := .resident, warps := [0], wdog := 160000000 })] }
theorem witness_SchedulingEvents_late : lateGang.drainOver 0 = true ∧ ran (exec (.saveDrainTimeout 0) lateGang) (fun t => ((t.warp 0).regs.vtag.get (32 * 8 + 1)).cause == cREPLY_LOST) = true ∧ dogGang.wdogDue 0 = true ∧ (dogGang.liveWarps 0).head? = some 0 ∧ dogGang.atBoundary 0 = true ∧ (({ dogGang with warps := [(0, { warp0 with step := { performed := true } })] } : State).atBoundary 0 = false ∧ ({ dogGang with warps := [(0, { warp0 with step := { performed := true } })] } : State).wdogDue 0 = true) ∧
    (let s := { dogGang with launches := [(0, { live := true, cls := 0 })] }; (s.gang 0).place = .resident ∧ (s.launch (s.gang 0).launch).cls = 0) ∧
    ran (exec (.gangWatchdogExpiry 0) dogGang) (fun t => (t.warp 0).sp.tcause == BitVec.ofNat 32 cWATCHDOG && (t.gang 0).stop) = true ∧ (one.gang 0).place = .resident ∧ (one.launch (one.gang 0).launch).cls ≠ 0 := by decide +kernel

def owned : State := { one with owners := [(2 ^ 24, 1)], mem := [(2 ^ 40 + 5, 9#8)] }
theorem witness_KillAndReset : (∀ u ∈ (owned.gang 0).warps, (owned.warp u).gang = 0) ∧ (∃ u ∈ (owned.gang 0).warps, (owned.warp u).live = true) ∧ (owned.ctx 0).live = true ∧ (2 ^ 24, 0 % 64 + 1) ∈ owned.owners ∧ 2 ^ 24 / 2 ^ 26 = 0 / 64 ∧
    ran (exec (.killRequest 0) owned) (fun t => t.byte (2 ^ 40 + 5) == 0#8 && !(t.warp 0).live) = true ∧ (owned.part 0).dump = none ∧ ((asked (.i3c true) owned).mc.admits = true ∧ (asked (.i3c false) owned).mc.admits = false ∧ ∀ k ∈ List.range 3, (owned.gang k).image = []) ∧ ran (exec (.reset 0) (asked (.i3c true) owned)) (fun t => !(t.ctx 0).live && (t.part 0).live) = true ∧
    partClocks ≤ (({ owned with parts := [(0, { live := true, nsec := 1, pwdog := partClocks })] } : State).part 0).pwdog ∧ (mmaState.part 0).hasSec (quadSection 0) = true ∧ (mmaState.quad 0).owner = some (0 % 64) ∧
    (owned.part 0).supPage ((2 ^ 40 - ppaLoc 0 0) / 65536) = false ∧ (({ owned with parts := [(0, { live := true, nsec := 1, dump := some {} })] } : State).part 0).dump ≠ none :=
  ⟨by decide +kernel, by decide +kernel, by decide +kernel, by decide +kernel, by decide, by decide +kernel, by decide +kernel, by decide +kernel, by decide +kernel, by decide +kernel, by decide +kernel, by decide +kernel, by decide +kernel⟩
theorem witness_assign : (assignOf 2 1).length = 8 ∧ (assignOf 2 1).Nodup ∧ assignOf 2 1 ≠ assignOf 2 0 := by decide +kernel
theorem witness_UncorrectableErrors : (one.warp 0).live = true ∧ ((one.gang 0).halted = false ∧ one.midStep 0 = false) ∧ (firing.pat (patKey 0 0)).armed = true ∧ (firing.port (portKey 0 7)).msgs[0]? = some { seq := 9#32 } ∧
    (let s : State := { one with hostStores := [(6, { live := true, warp := 0 })] }; ((s.warp 0).replies.get 6).host = false ∧ (s.hostStores.get 6).live = true ∧ (s.hostStores.get 6).warp = 0) ∧ (one.part 0).hasSec (clusterSection 0) = true ∧ owned.owner 0 (2 ^ 40) = 0 ∧ (owned.ctx 0).ring.length < 256 ∧ ((heapState [(5, .queued 1#32)] []).heaps.get (heapKey 0 3)).entry 5 ≠ .absent ∧
    ((({ one with parts := [(0, { live := true, nsec := 1, timers := [(3, { live := true })] })] } : State).part 0).timers.get 3).live = true ∧ (((oneW (fun w => { w with replies := [(4, { host := true })] })).warp 0).replies.get 4).host = true ∧
    ran (exec (.uncorrectableError (.hbm 0 (2 ^ 40)) false) owned) (fun t => t.poisonLine.get (2 ^ 33) && ((t.ctx 0).ring.length == 1)) = true := by decide +kernel


/-- The oldest mailbox entry names the block at 128 of an S page; its words. -/
def mail (w0 w2 ppa : Nat) : State := walked 0xF4 ((({ one with
  parts := [(0, { live := true, nsec := 1, mailbox := [{ x := 128#32 }] })], ports := [(portKey 0 7, port7)], ctxs := [(0, { live := true, squota := 2, hquota := 2 })] } : State).write (2 ^ 40 + 128) 4 (w0 + 7 * 65536)).write (2 ^ 40 + 136) 4 w2 |>.write (2 ^ 40 + 144) 8 ppa)
def opcOf (s : State) : Option (Nat × Bool × Bool) := (s.mailReq 0).map (fun r => (r.opc, r.formOk, s.canPost 0 r.ctx r.port))
def answered (st : Nat) (t : State) : Bool := (t.part 0).mailbox.length == 0 && ((t.port (portKey 0 7)).msgs.map (fun m => (m.kind, m.payload.getD 1 9#32))) == [(9, BitVec.ofNat 32 st)]
theorem witness_MailboxRequests : [mail 1 1 0, mail 2 1 0, mail 3 1 (2 ^ 40), mail 4 1 (2 ^ 40), mail 5 1 0].map opcOf = [some (1, true, true), some (2, true, true), some (3, true, true), some (4, true, true), some (5, true, true)] ∧
    opcOf (mail 1 65 0) = some (1, false, true) ∧ (mail 1 1 0).owner 0 (2 ^ 40) = 0 ∧ (mail 1 1 0).pagesOf 0 0 true = 1 ∧
    ran (exec (.allocScr 0) (mail 1 1 0)) (answered 0) = true ∧ ran (exec (.allocScr 0) (mail 1 2 0)) (answered 1) = true ∧ ran (exec (.allocScr 0) (mail 1 65 0)) (answered 2) = true := by decide +kernel
theorem witness_MailboxRequests_rest : ran (exec (.allocHbm 0) (mail 2 2 0)) (answered 0) = true ∧ ran (exec (.allocHbm 0) (mail 2 3 0)) (answered 1) = true ∧ ran (exec (.free 0) (mail 3 1 (2 ^ 40))) (fun t => answered 3 t || t.owner 0 (2 ^ 40) == 0x7F) = true ∧
    ran (exec (.free 0) (mail 3 1 0)) (answered 3) = true ∧ ran (exec (.place 0) (mail 4 1 (2 ^ 40))) (answered 0) = true ∧ ran (exec (.place 0) (mail 4 1 0)) (answered 3) = true ∧ ran (exec (.mboxen 0) (mail 5 1 0)) (fun t => answered 0 t && (t.ctx 0).mboxUser) = true := by decide +kernel

/-- A creation record of one object whose manifest is absent, the creation open; all contexts live; and the record of no object. -/
def creating (nobj : Nat) (ctxs : Map Ctx) : State := { one with mc := { one.mc with created := true }, ctxs := ctxs, fns := [(0, { creation := [(12, BitVec.ofNat 8 nobj)] })] }
theorem witness_ContextCreation : (creating 1 []).mc.created = true ∧ (creating 1 []).creationWord 0 12 4 = 1 ∧ (creating 0 []).creationWord 0 12 4 = 0 ∧ ((creating 1 []).ctx 0).live = false ∧ ∀ k, k < 64 → ((creating 1 ((List.range 64).map (fun k => (k, { live := true })))).ctx (ctxKey 0 k)).live = true := by decide +kernel
/-- A context of one object of one byte, its page's digest 5, and a descriptor of that object. -/
theorem witness_ContextCreation_object : let o : CodeObj := ⟨true, 1, [5], [], [], [], [1#8]⟩; let x : Install := ⟨[], [], [(1, oneGang), (0, oneGang)], [], []⟩
    (((creating 1 []).buildCtx 0 0 [o] x).map (fun t => ((t.ctx 0).digests.get 0, (t.ctx 0).objLen.get 0))) = some (5, 1) ∧ dsRoles oneGang = 1 ∧ (creating 1 []).ppaInside 0 scrPpa = true ∧ scrPpa / 65536 < 2 ^ 26 ∧
    ran (exec (.pageMigration 0 (scrPpa / 65536) 0) (creating 1 [])) (fun t => t.sectionOf 0 (scrPpa / 65536) == 0) = true := by decide +kernel
/-- A context of no object is built in storage that is all free. -/
theorem witness_ContextCreation_built : ((creating 1 []).buildCtx 0 0 [] ⟨[], [], [], [], []⟩).isSome = true ∧ (creating 1 []).ppaInside 0 (65536 * (scrPpa / 65536)) = true ∧ ((creating 1 []).part 0).hasSec 0 = true := by decide +kernel


/-! ### Witnesses: host, time, fabric, debugger and module -/

/-- Function 0 with slot 1 of its aperture at scratchpad page 0, port 7 writable by the host. -/
def hosted : State := { one with ports := [(portKey 0 7, { port7 with hostw := true })], fns := [(0, { slots := [(1, 2 ^ 24 + 1)] })], hostStores := [(6, { live := true })], warps := [(0, { warp0 with replies := [(4, { host := true, lanes := 3#32 })] })], clock := 10 ^ 9 }
theorem witness_HostRequests : (hosted.part 0).live = true ∧ (List.replicate 32 1#8).length = 32 ∧ barCtx 224 = 0 ∧ barPort 224 = 7 ∧ (hosted.ctx 0).live = true ∧ (hosted.port (portKey 0 7)).parked.length < (hosted.port (portKey 0 7)).free ∧
    ran (exec (.hostPortWrite 0 224 (List.replicate 32 1#8)) hosted) (fun t => (t.port (portKey 0 7)).msgs.length == 1) = true ∧ ran (exec (.hostPortWrite 0 225 []) hosted) (fun t => (t.fns.get 0).pwbad == 1) = true ∧
    (hosted.fns.get 0).slots.get (65544 / 65536) = 2 ^ 24 + 1 ∧ oneRequest 512 65544 512 = true ∧ oneRequest 4096 65536 4096 = true ∧ (hosted.fns.get 0).slots.get (0 / 65536) = 0 ∧ ran (exec (.hostApertureWrite 0 65544 [5#8]) hosted) (fun t => t.byte (2 ^ 40 + 8) == 5#8) = true ∧
    ran (exec (.hostApertureWrite 0 0 [5#8]) hosted) (fun t => (t.fns.get 0).apdrop == 1) = true ∧ scrPpa ≤ (BitVec.ofNat 64 (2 ^ 40)).toNat ∧ (2 ^ 40) % 65536 = 0 ∧ hosted.ppaInside 0 (2 ^ 40) = true ∧
    hosted.hostOverdue 0 4 = true ∧ hosted.dueLanes 0 4 = 3#32 ∧ (hosted.hostStores.get 6).live = true ∧ ran (exec (.hostStoreFail 6) hosted) (fun t => (t.ctx 0).ring.length == 1) = true := by decide +kernel
/-- Ranks 1 and 2 of an ensemble, and rank 2 alone left in it. -/
theorem witness_TimeAndFabric_ranks : (let ms : List EnsMember := [⟨0, some 0, []⟩, ⟨63, none, []⟩]; ms ≠ [] ∧ (∀ m ∈ ms, m.rank < 64) ∧ (ms.filterMap (·.launch)).length ≤ 1) ∧
    (∀ e ∈ one.heldStores, e.2.live = true → lanesTo e.2.ranks 63 = 0#32) ∧ Map.wf (one.warp 0).replies = true ∧
    ([false, true].map (fun b => let s : State := { one with ens := [(2, { live := true, members := [(1, { live := true }), (2, { live := true, left := b })] })] }
      let ms := (s.ens.get 2).members; Map.wf ms && ms.all (fun x => x.2.live) && (ms.get 1).live && (ms.any (fun x => x.1 != 1 && !x.2.left) == !b) &&
        ran (exec (.ensembleDeregister 2 1) s) (fun t => ((t.ens.get 2).members.get 1).live == !b))) = [true, true] := by decide +kernel
theorem witness_TimeAndFabric : ((2 ^ 40 : Int) - one.phc).natAbs > phcUs ∧ ((1 : Int) - one.phc).natAbs ≤ phcUs ∧ one.mc.ptmOnly = false ∧ one.mc.tod = none ∧ ({ one.mc with ptmOnly := true } : Module).ptmOnly = true ∧ one.pulseDue = true ∧
    (one.links.get 17).down = false ∧ (one.links.get 17).retraining = false ∧ ({ fails := 7, retraining := true } : Link).retraining = true ∧ ran (exec (.flitCrcFail 17) one) (fun t => (t.links.get 17).fails == 1) = true ∧ (∀ e ∈ one.portOps, e.2.live = true → lanesTo e.2.ranks 63 = 0#32) ∧
    (let ms : List EnsMember := [⟨0, some 0, []⟩, ⟨63, none, []⟩]; (ms.map (·.rank)).Nodup ∧ (ms.filterMap (·.launch)).Nodup ∧ (one.launch 0).live = true ∧ (one.launch 0).ens = none ∧ ran (exec (.ensembleRegister ms) one) (fun t => (t.launch 0).ens.isSome) = true) ∧
    ((({ one with ens := [(2, { live := true, members := [(63, { live := true })] })] } : State).ens.get 2).members.get 63).live = true ∧ ran (exec .ppsOutput one) (fun t => !t.pulseDue) = true ∧ ran (exec (.ppsInput 0) { one with mc := { one.mc with tod := some (3 * phcSecond + 5, 0) } }) (fun t => t.phc == 3 * phcSecond) = true ∧ nearestSecond one.phc = 0 := by decide +kernel
/-- A debugged context with a halted gang whose warp has a stop record, and its launch recorded for replay or not. -/
def debugged (replay : Bool) : State := { one with
  mc := { one.mc with life := .factory }, ctxs := [(0, { live := true, dbg := { session := some 4 } })], warps := [(0, { warp0 with step := {}, stopRec := { valid := true } })],
  gangs := [(0, { place := .resident, warps := [0], gangSize := 0x10000, halted := true, count := 2 ^ 20 })], launches := [(0, { live := true, cls := 1, replay := replay })] }
theorem witness_DebuggerCommands : (let s : State := { one with mc := { one.mc with life := .factory } }; (s.ctx 0).live = true ∧ s.mayDebug 0 = true ∧ s.attached 0 = false ∧ ran (exec (.debugRightGrant 0 4) s) (fun t => t.attached 0) = true) ∧
    (let s := { debugged false with gangs := [(0, { place := .resident, warps := [0] })] }; s.attached 0 = true ∧ (∀ e ∈ s.gangs, ctxKey e.2.part e.2.ctx = 0 → (s.gang e.1).halted = false)) ∧
    (let s := { debugged false with warps := [(0, { warp0 with step := {} })], gangs := [(0, { place := .resident, warps := [0] })] }; (s.warp 0).step.performed = false ∧ (s.warp 0).stopRec.valid = false ∧ ran (exec (.halt 0) s) (fun t => (t.gang 0).halted && (t.warp 0).stopRec.valid) = true) ∧
    (let s := debugged false; (s.gang 0).halted = true ∧ (s.gang 0).rerun = none ∧ (s.gang 0).warps.Nodup ∧ (s.warp 0).wait = .ready ∧ (s.warp 0).runnable ≠ 0#32 ∧ (s.launch (s.gang 0).launch).replay = false ∧ (s.gang 0).barriers = [] ∧ s.frozen 0 = false ∧ (s.warp 0).gang = 0 ∧ (s.warp 0).stopRec.valid = true ∧
      [EditTarget.vreg 0 255 0x80000001#32 (Lanes.splat 7#32), .sreg 0 511 7#32, .special 0 0x15 7#32, .vpc 0 31 8#32, .tag 0 true 255 31 0x48 4#32, .tag 0 false 511 0 0x48 0#32, .mode 0 3, .held 0 1#32, .rstateU 0 2 15 1#32,
        .rstateS 0 (List.replicate 5 9#32) 3 15 1#32 (.sleep 1 2) (List.replicate 12 1#32), .waitSet 0 11 1#32, .wait 0 (.line 3), .batch 0 16 [(1, true, 2, 0, 3#32)], .group 0 8, .barrier 0 31 65535 1 (-1) 2#32 true, .gangMem 0 4095 (List.replicate 16 1#8)].all s.editOk = true ∧
      ran (exec (.debuggerEdit (.vreg 0 255 0x80000000#32 (Lanes.splat 7#32))) s) (fun t => (t.warp 0).vword 255 31 == 7#32 && (t.ctx 0).dbg.edits == 1) = true ∧ ran (exec (.resume 0) s) (fun t => !(t.gang 0).halted) = true) ∧
    (let s := debugged true; s.atBoundary 0 = true ∧ (s.gang 0).pendStop = none ∧ (s.gang 0).rerun = none ∧ pointBefore (s.gang 0).present (1, 0) = true ∧ s.checkpointDue 0 = true ∧ s.midStep 0 = false ∧ ran (exec (.replayCheckpoint 0) s) (fun t => (t.gang 0).interval == 1) = true ∧
      ran (exec (.stopat 0 0 (2 ^ 20)) s) (fun t => (t.ctx 0).dbg.ring.length == 1) = true) ∧
    watchBad 16#64 0x80040000#32 = false ∧ watchBad 1#64 0x80040000#32 = true := by decide +kernel
/-- A replay gang of two warps, whose next is the first; a warp that waits; a stop at the present point of a halted gang; a point gone by. -/
theorem witness_DebuggerCommands_replay : let s : State := { debugged true with warps := [(0, { warp0 with step := {}, stopRec := { valid := true } }), (1, { warp0 with step := {}, wid := 1, stopRec := { valid := true } })], gangs := [(0, { place := .resident, warps := [0, 1], gangSize := 0x10000, halted := true, count := 5 })] }
    (s.attached 0 = true ∧ (s.gang 0).rerun = none ∧ (s.gang 0).pendStop = none ∧ s.atBoundary 0 = true ∧ (s.gang 0).place = .resident ∧ (s.launch (s.gang 0).launch).replay = true) ∧ s.replayNext 0 = some 0 ∧ (s.warp 1).gang = 0 ∧ (s.warp 1).live = true ∧
    (∀ u ∈ (s.gang 0).warps, (s.warp u).live = true → (s.warp u).stopRec.valid = true) ∧ pointBefore (s.gang 0).present (0, 4) = false ∧ ((0, 4) ≠ (s.gang 0).present ∧ s.snapAt 0 (0, 4) = none) ∧
    ((({ s with warps := [(0, { warp0 with wait := .line 3 })] } : State).warp 0).wait ≠ .ready) := by decide +kernel
def power (m : Module) (d : Option DumpJob) : State := { one with mc := m, parts := [(0, { live := true, nsec := 1, dump := d })], gangs := [], clock := 2 * 10 ^ 10 }
theorem witness_ModuleCommands : (power {} none).mc.badSince = none ∧ (power { badSince := some 0 } none).powerOffDue = true ∧ ran (exec .powerOff (power { badSince := some 0 } none)) (fun t => !t.powered && (t.ctx 0).ring.length == 1) = true ∧
    ran (exec (.powerWindow 0 100) (power { shares := [(0, 50)] } none)) (fun t => (t.part 0).withheld == 8) = true ∧ ({ one.mc with partMap := [(0, 1)] } : Module).partMap.length = [800].length ∧ [800].foldl (· + ·) 0 ≤ 800 ∧ ¬ (800 ≤ 799) ∧
    (asked (.i3c true) one).mc.admits = true ∧ (asked (.i3c false) one).mc.admits = false ∧ one.mc.admits = false ∧ ran (exec (.cap 800 []) one) (fun t => t.mc.out == [.refused]) = true ∧
    ((power {} none).part 0).window ≤ (power {} none).clock / 1600 ∧ (power {} none).clock / 1600 < (({ power {} none with parts := [(0, { live := true, nsec := 1, window := 2 * 10 ^ 10 })] } : State).part 0).window ∧
    (((power {} (some {})).part 0).dump = some {} ∧ (power {} (some {})).dumpSaved 0 = true ∧ (power {} (some {})).dumpOver 0 = true) ∧ ran (exec (.dumpTimeout 0) (power {} (some {}))) (fun t => (t.part 0).dump.isNone && t.mc.out.length == 1) = true := by decide +kernel
theorem witness_LifeCycleAndAttestation : (let r : SignedRequest := ⟨true, 0, [], [], [], [], 0, 0⟩; (({ life := .blank } : Module).transit .factory r).isSome = true ∧ (({ life := .field } : Module).transit .fieldDebug { r with byVendor := false }).isSome = true ∧ (({ life := .factory } : Module).transit .field r).isSome = true) ∧
    one.measurement 0 = none ∧ one.measurement 24 = none := by decide +kernel

end Sys2Proof.Tests
end

section
/-! Bytes of memory after a run of writes, and what taking an exception leaves of a warp and of memory (R6, R8, R27, R35, R104, R343 to R345). -/
set_option autoImplicit false

namespace Sys2Proof.Machine

/-! ### Runs of bytes (R8) -/

/-- A run of bytes written leaves every byte outside it. -/
theorem State.byte_setBytes_outside (s : State) (loc : Nat) (bs : List Byte) (a : Nat) (h : a < loc ∨ loc + bs.length ≤ a) :
    (s.setBytes loc bs).byte a = s.byte a := by
  induction bs generalizing s loc with
  | nil => rfl
  | cons b bs ih =>
    rw [List.length_cons] at h
    rw [State.setBytes_cons, ih _ _ (by omega), State.byte_setByte_ne s b (by omega)]

theorem State.bytes_succ (s : State) (loc n : Nat) : s.bytes loc (n + 1) = s.byte loc :: s.bytes (loc + 1) n := by
  simp [State.bytes, List.range_succ_eq_map, Nat.add_comm, Nat.add_left_comm]

/-- A run of bytes written is read back. -/
theorem State.bytes_setBytes (s : State) (loc : Nat) (bs : List Byte) : (s.setBytes loc bs).bytes loc bs.length = bs := by
  induction bs generalizing s loc with
  | nil => rfl
  | cons b bs ih =>
    rw [List.length_cons, State.bytes_succ, State.setBytes_cons, ih, State.byte_setBytes_outside _ _ _ _ (by omega), State.byte_setByte_self]

/-- Settles O3, by induction on the bytes written. -/
theorem bytesReadBack : Obligations.BytesReadBack :=
  fun s loc bs => ⟨s.bytes_setBytes loc bs, s.byte_setBytes_outside loc bs, State.wf_setBytes loc bs⟩

/-- States with one memory read the same bytes. -/
theorem State.sameBytes_of_mem {s t : State} (h : t.mem = s.mem) : s.sameBytes t := fun a => congrArg (fun m : Map Byte => m.get a) h

/-! ### Leaving the lists of parked warps, and the loop buffer -/

@[simp] theorem State.warp_unpark_self (s : State) (u : Nat) :
    (s.unpark u).warp u = { s.warp u with tryPort := none, tryHeap := none, tryAway := false } := by
  unfold State.unpark
  rw [State.warp_updWarp_self]
  cases (s.warp u).tryPort <;> cases (s.warp u).tryHeap <;> rfl

@[simp] theorem State.unpark_mem (s : State) (u : Nat) : (s.unpark u).mem = s.mem := by
  unfold State.unpark
  dsimp only
  split <;> split <;> rfl

@[simp] theorem State.leaveLoop_mem (s : State) (u : Nat) : (s.leaveLoop u).mem = s.mem := by
  obtain ⟨Q, h, -⟩ := s.leaveLoop_same u
  rw [h]

/-! ### The entry of a handler -/

/-- What the entry of a handler leaves of a warp: the vector registers, the scalar registers outside the trap window, FLAGS, STEPS and the step
in progress. -/
def Warp.sameButTrap (w x : Warp) : Prop :=
  x.regs.vec = w.regs.vec ∧ (∀ r, (r < 480 ∨ 496 ≤ r) → x.sword r = w.sword r) ∧ x.sp.flags = w.sp.flags ∧ x.sp.steps = w.sp.steps ∧ x.step = w.step

/-- Writes of scalar registers from `base` on change no other register and nothing else of the warp. -/
theorem Warp.foldl_setS_same (base : Nat) (f : Nat → Word) (ks : List Nat) (w : Warp) :
    ∃ x, ks.foldl (fun a i => a.setS (base + i) (f i)) w = { w with regs := x } ∧ x.vec = w.regs.vec ∧
      ∀ r, (∀ i ∈ ks, r ≠ base + i) → x.scal.get r = w.sword r := by
  induction ks generalizing w with
  | nil => exact ⟨w.regs, rfl, rfl, fun _ _ => rfl⟩
  | cons i ks ih =>
    obtain ⟨x, hx, hvec, hscal⟩ := ih (w.setS (base + i) (f i))
    refine ⟨x, hx, hvec, fun r hr => ?_⟩
    rw [hscal r (fun j hj => hr j (List.mem_cons_of_mem i hj)), Warp.sword_setS_ne _ _ (hr i List.mem_cons_self)]

theorem Warp.enterUser_spec (w : Warp) (cause : Nat) (tpc taddr tinfo : Word) (m : Mask) :
    (w.enterUser cause tpc taddr tinfo m).trapped cause tpc taddr tinfo m ∧ w.sameButTrap (w.enterUser cause tpc taddr tinfo m) := by
  unfold Warp.enterUser
  extract_lets _ win w1
  obtain ⟨x, hx, hvec, hscal⟩ := w.foldl_setS_same 480 (fun i => win.getD i 0#32) (List.range 16)
  have hw1 : w1 = { w with regs := x } := hx
  clear_value w1
  subst hw1
  refine ⟨⟨rfl, rfl, rfl, rfl, rfl⟩, hvec, fun r hr => hscal r (fun i hi => ?_), rfl, rfl, rfl⟩
  have := List.mem_range.1 hi
  omega

theorem Warp.enterSup_spec (w : Warp) (entry : Word) (cause : Nat) (tpc taddr tinfo : Word) (m : Mask) :
    (w.enterSup entry cause tpc taddr tinfo m).trapped cause tpc taddr tinfo m ∧ w.sameButTrap (w.enterSup entry cause tpc taddr tinfo m) := by
  unfold Warp.enterSup
  by_cases hm : (w.mode == .sup) = true <;> by_cases hc : cause = cCODE_INTEGRITY <;> simp only [hm, hc, if_true, if_false] <;>
    exact ⟨⟨rfl, rfl, rfl, rfl, rfl⟩, rfl, fun _ _ => rfl, rfl, rfl, rfl⟩

/-! ### Delivery (R342, R343) -/

/-- A cause of the user or the supervisor class is delivered in one of the two. -/
theorem State.deliveryClass_handled (s : State) (w : Warp) (cause : Nat) (h : classOf cause = .user ∨ classOf cause = .sup) :
    s.deliveryClass w cause = .user ∨ s.deliveryClass w cause = .sup := by
  unfold State.deliveryClass
  rcases h with h | h
  · cases hu : (w.mode == .user || w.mode == .sup || !w.sp.trapvec.getLsbD 0) with
    | true => right; simp [h]
    | false =>
      have hs : (w.mode == .sup) = false := by simp at hu ⊢; exact hu.1.2
      left; simp [h, hs]
  · right; simp [h]

/-- Delivery of a user-class or supervisor-class cause: the trap registers, and what stays as it was (R343 to R345). -/
theorem State.deliver_spec (s : State) (u cause : Nat) (tpc taddr tinfo : Word) (m : Mask) (h : classOf cause = .user ∨ classOf cause = .sup) :
    ((s.deliver u cause tpc taddr tinfo m).warp u).trapped cause tpc taddr tinfo m ∧
    (s.warp u).sameButTrap ((s.deliver u cause tpc taddr tinfo m).warp u) ∧ (s.deliver u cause tpc taddr tinfo m).mem = s.mem := by
  have hpark : ∀ x, ((s.unpark u).warp u).sameButTrap x → (s.warp u).sameButTrap x := fun x hx => by
    rw [State.warp_unpark_self] at hx; exact hx
  unfold State.deliver State.deliverAs
  rcases (s.unpark u).deliveryClass_handled ((s.unpark u).warp u) cause h with hk | hk
  · simp only [hk, State.warp_setWarp_self, State.setWarp_mem, State.leaveLoop_mem, State.unpark_mem, and_true]
    obtain ⟨ht, hs⟩ := ((s.unpark u).warp u).enterUser_spec cause tpc taddr tinfo m
    exact ⟨ht, hpark _ hs⟩
  · simp only [hk, State.warp_setWarp_self, State.setWarp_mem, State.leaveLoop_mem, State.unpark_mem, and_true]
    obtain ⟨ht, hs⟩ := ((s.unpark u).warp u).enterSup_spec ((s.unpark u).ctx ((s.unpark u).ckOf ((s.unpark u).warp u))).supEntry cause tpc taddr tinfo m
    exact ⟨ht, hpark _ hs⟩

/-- What a fault of a warp leaves: the cause stands in the trap registers with the step's first address, the step in progress is gone, and no
vector register, no scalar register outside the trap window, neither FLAGS nor STEPS, and no byte has changed (R27, R343). -/
def State.faulted (s t : State) (u cause : Nat) (taddr tinfo : Word) (m : Mask) : Prop :=
  (t.warp u).trapped cause (s.warp u).step.first taddr tinfo m ∧ (s.warp u).abandon.sameButTrap (t.warp u) ∧ t.mem = s.mem

theorem State.faultWarp_faulted (s : State) (u cause : Nat) (taddr tinfo : Word) (m : Mask) (h : classOf cause = .user ∨ classOf cause = .sup) :
    s.faulted (s.faultWarp u cause taddr tinfo m) u cause taddr tinfo m := by
  have hd := (s.updWarp u Warp.abandon).deliver_spec u cause (s.warp u).step.first taddr tinfo m h
  rw [State.warp_updWarp_self] at hd
  exact hd

/-! ### The arithmetic trap (R35, R104) -/

/-- The lanes of a list of conditions together. -/
theorem getLsbD_foldl_lanes (cs : List Cond) (a : Mask) (l : Nat) :
    (cs.foldl (fun a c => a ||| c.lanes) a).getLsbD l = true ↔ a.getLsbD l = true ∨ ∃ c ∈ cs, c.lanes.getLsbD l = true := by
  induction cs generalizing a with
  | nil => simp
  | cons c cs ih => simp [ih, or_assoc]

theorem Warp.mem_enabledConds (w : Warp) (c : Cond) : c ∈ w.enabledConds ↔ c ∈ w.step.conds ∧ w.sp.fpctl.getLsbD c.bit = true :=
  List.mem_filter

/-- The lowest condition of the step that FPCTL enables; 7 when none below is enabled (R104). -/
def Warp.trapBit (w : Warp) : Nat := (w.enabledConds.map (·.bit)).foldl min 7

/-- The lanes that raised it. -/
def Warp.trapLanes (w : Warp) : Mask := (w.step.conds.filter (fun c => c.bit == w.trapBit)).foldl (fun a c => a ||| c.lanes) 0#32

/-- The arithmetic trap is a fault with the lowest enabled condition as its cause. -/
theorem State.arithTrap_eq (s : State) (u : Nat) :
    ∃ taddr tinfo, s.arithTrap u = s.faultWarp u (0x30 + (s.warp u).trapBit) taddr tinfo (s.warp u).trapLanes := ⟨_, _, rfl⟩

/-- The trapping condition is the least of 7 and the enabled ones. -/
theorem Warp.trapBit_least (w : Warp) :
    (w.trapBit = 7 ∨ ∃ c ∈ w.enabledConds, c.bit = w.trapBit) ∧ w.trapBit ≤ 7 ∧ ∀ c ∈ w.enabledConds, w.trapBit ≤ c.bit := by
  have h : (7 :: w.enabledConds.map (·.bit)).min? = some w.trapBit := List.min?_cons'
  simpa using List.min?_eq_some_iff.1 h

/-- An enabled condition below 7 is raised: the trapping one is too, and enabled. -/
theorem Warp.trapBit_raised (w : Warp) (h : ∃ c ∈ w.enabledConds, c.bit < 7) : w.trapBit < 7 ∧ ∃ c ∈ w.enabledConds, c.bit = w.trapBit := by
  obtain ⟨c, hc, hlt⟩ := h
  obtain ⟨hmem, -, hle⟩ := w.trapBit_least
  have hlow : w.trapBit < 7 := Nat.lt_of_le_of_lt (hle c hc) hlt
  exact ⟨hlow, hmem.resolve_left (Nat.ne_of_lt hlow)⟩

theorem Warp.getLsbD_trapLanes (w : Warp) (l : Nat) :
    w.trapLanes.getLsbD l = true ↔ ∃ c ∈ w.step.conds, c.bit = w.trapBit ∧ c.lanes.getLsbD l = true := by
  simp [Warp.trapLanes, getLsbD_foldl_lanes, and_assoc]

/-- The causes of the seven conditions are of the user class (R342). -/
theorem classOf_condition : ∀ b, b < 7 → classOf (0x30 + b) = .user := by decide

/-! ### The last operation of a step that traps -/

/-- An operation that does not end its step adds its conditions, and leaves the step's first address, the registers and the special registers. -/
theorem State.me_finish_more (s : State) (res : Option Lanes) (buf : List Buf) (conds : List Cond) :
    (s.finish false res buf conds).me.step.conds = s.me.step.conds ++ conds ∧ (s.finish false res buf conds).me.step.first = s.me.step.first ∧
    (s.finish false res buf conds).me.regs = s.me.regs ∧ (s.finish false res buf conds).me.sp = s.me.sp := by
  rw [State.finish_more, State.me_updMe]
  exact ⟨rfl, rfl, rfl, rfl⟩

/-- A step that closes with an enabled condition below 7 faults with the lowest one, for the lanes that raised it (R35, R104). -/
theorem State.finish_trap (s : State) (res : Option Lanes) (buf : List Buf) (conds : List Cond)
    (h : ∃ c ∈ (s.finish false res buf conds).me.enabledConds, c.bit < 7) :
    ∃ taddr tinfo, (s.finish false res buf conds).faulted (s.finish true res buf conds) s.actor
      (0x30 + (s.finish false res buf conds).me.trapBit) taddr tinfo (s.finish false res buf conds).me.trapLanes := by
  obtain ⟨hlt, _⟩ := Warp.trapBit_raised _ h
  obtain ⟨c, hc, _⟩ := h
  have hcommit : s.finish true res buf conds = (s.finish false res buf conds).arithTrap s.actor := by
    rw [State.finish_last]
    exact State.commit_trap _ _ (List.ne_nil_of_mem hc)
  obtain ⟨taddr, tinfo, htrap⟩ := (s.finish false res buf conds).arithTrap_eq s.actor
  rw [hcommit, htrap]
  exact ⟨taddr, tinfo, State.faultWarp_faulted _ _ _ _ _ _ (.inl (classOf_condition _ hlt))⟩

/-- Settles O29: a fault abandons the step before it is delivered, and delivery writes the trap registers and the trap window alone; the
arithmetic trap is such a fault. -/
theorem faultsCommitNothing : Obligations.FaultsCommitNothing := by
  refine ⟨fun s cause taddr tinfo m _ _ hc hk => ?_, fun s res buf conds _ _ hen _ => ?_⟩
  · rw [State.raise_clear s _ _ _ _ hc]
    obtain ⟨ht, ⟨hvec, hscal, hflags, hsteps, hstep⟩, hmem⟩ := s.faultWarp_faulted s.actor cause taddr tinfo m hk
    exact ⟨ht, hstep, hvec, hscal, hflags, hsteps, State.sameBytes_of_mem hmem⟩
  · obtain ⟨hconds, hfirst, hregs, hsp⟩ := s.me_finish_more res buf conds
    have hmem1 := s.finish_more_mem res buf conds
    have hraised := fun h => State.finish_trap s res buf conds h
    generalize hs1 : s.finish false res buf conds = s1 at *
    have hact : s1.warp s.actor = s1.me := by rw [← hs1]; rfl
    have henabled : ∀ c, c ∈ s1.me.enabledConds ↔ c ∈ s.me.step.conds ++ conds ∧ s.me.sp.fpctl.getLsbD c.bit = true := fun c => by
      rw [Warp.mem_enabledConds, hconds, hsp]
    have hlow : ∃ c ∈ s1.me.enabledConds, c.bit < 7 := by
      obtain ⟨c, hc, hon, hlt⟩ := hen
      exact ⟨c, (henabled c).2 ⟨hc, hon⟩, hlt⟩
    obtain ⟨hlt, c, hc, hbit⟩ := s1.me.trapBit_raised hlow
    obtain ⟨-, -, hle⟩ := s1.me.trapBit_least
    obtain ⟨hc, hon⟩ := (henabled c).1 hc
    obtain ⟨taddr, tinfo, ⟨hcause, htpc, -, -, htmask⟩, ⟨hvec, hscal, hflags, -, -⟩, hmem⟩ := hraised hlow
    rw [hact] at htpc hvec hscal hflags
    refine ⟨s1.me.trapBit, hlt, ⟨c, hc, hbit⟩, hbit ▸ hon, fun d hd hdon => hle d ((henabled d).2 ⟨hd, hdon⟩),
      hcause, ?_, fun l => ?_, ?_, ?_, fun r hr => ?_, State.sameBytes_of_mem (hmem.trans hmem1)⟩
    · exact htpc.trans hfirst
    · rw [htmask, Warp.getLsbD_trapLanes, hconds]
    · exact hflags.trans (congrArg Special.flags hsp)
    · exact hvec.trans (congrArg Regs.vec hregs)
    · exact (hscal r hr).trans (Warp.sword_of_regs _ _ hregs r)

end Sys2Proof.Machine
end

section
/-! The commit of a step at whose boundary nothing else happens, and the two instructions on special registers (R27, R33 to R35, R266, R349). -/
set_option autoImplicit false

namespace Sys2Proof.Machine

/-! ### The parts of a commit (R27, R34) -/

/-- The lane program counters and the buffer of a step applied, before the step closes. -/
def State.applied (s : State) (u : Nat) : State :=
  let c := (s.warp u).step
  c.buf.foldl (fun s b => s.applyBuf u b) (s.updWarp u (fun w => w.setVpc c.issue (fun l => c.nexts.getD l c.stepEnd)))

/-- A warp closes the step `c`: FLAGS gains its conditions, STEPS counts, the waiting sets of the masks it wrote are released. -/
def Warp.closeStep (w : Warp) (c : StepCtx) : Warp :=
  ({ w with step := {}, age := none, rejKind := 0, urgent := false, woken := [],
            sp := { w.sp with flags := w.sp.flags ||| BitVec.ofNat 32 (condBits c.conds), steps := w.sp.steps + 1 } } : Warp).releaseMasks
    (c.buf.flatMap Buf.maskWritten)

/-- The step `c` of warp `u` closed, its buffer applied: the warp, its gang's counters, the loop buffer it may have left. -/
def State.closed (s : State) (u : Nat) (c : StepCtx) : State :=
  (((s.unpark u).updWarp u (fun w => w.closeStep c)).countStep u).followLoop u

/-- The commit in its parts: apply, close, then what meets at the boundary. -/
theorem State.commitNow_eq (s : State) (u : Nat) :
    s.commitNow u =
      let c := (s.warp u).step
      let t := (s.applied u).closed u c
      let g := (t.warp u).gang
      (if (t.warp u).unexited = 0#32 then t.retireStep u c.first
       else ((t.postCommit u c.stepEnd c.buf).keepPoint g).boundaryStop u).raiseWatchdog g := rfl

/-- At the boundary of warp `u` nothing happens but the commit: it waits for nothing, is not single-stepped, has a lane left, and its gang is neither
halted nor recorded for replay, its watchdog not expired. -/
def State.quietAt (s : State) (u : Nat) : Prop :=
  (s.warp u).wait = .ready ∧ (s.warp u).stepping = false ∧ (s.warp u).unexited ≠ 0#32 ∧ (s.gang (s.warp u).gang).halted = false ∧
  (s.gang (s.warp u).gang).wdPend = false ∧ (s.launch (s.gang (s.warp u).gang).launch).replay = false

theorem State.quietAt_of_atRest {s : State} (h : s.atRest) : s.quietAt s.actor := by
  obtain ⟨hwait, hstepping, -, -, hlanes, hhalted, hwd, hreplay⟩ := h
  exact ⟨hwait, hstepping, hlanes, hhalted, hwd, hreplay⟩

/-- At a quiet boundary a step without a TRAP is followed by nothing. -/
theorem State.boundary_quiet (t : State) (u : Nat) (e : Word) (bs : List Buf) (h : t.quietAt u) (hb : ∀ imm m, Buf.softTrap imm m ∉ bs) :
    (((t.postCommit u e bs).keepPoint (t.warp u).gang).boundaryStop u).raiseWatchdog (t.warp u).gang = t := by
  obtain ⟨hwait, hstepping, -, hhalted, hwd, hreplay⟩ := h
  have hpost : t.postCommit u e bs = t := by
    unfold State.postCommit
    rw [State.endWaitTrap_ready t u hwait, State.takeWaitTrap_ready t u hwait, ite_self]
    induction bs with
    | nil => rfl
    | cons b bs ih =>
      rw [List.foldl_cons]
      have htail := ih (fun imm m hm => hb imm m (List.mem_cons_of_mem b hm))
      cases b
      case softTrap imm m => exact absurd List.mem_cons_self (hb imm m)
      all_goals exact htail
  have hstop : t.boundaryStop u = t := by simp [State.boundaryStop, hstepping, hhalted]
  have hwatch : t.raiseWatchdog (t.warp u).gang = t := by simp [State.raiseWatchdog, hwd]
  rw [hpost, State.keepPoint_live t _ hreplay, hstop, hwatch]

theorem Warp.closeStep_same (w : Warp) (c : StepCtx) :
    ∃ ws, w.closeStep c = { w with
      step := {}, age := none, rejKind := 0, urgent := false, woken := [], wsets := ws
      sp := { w.sp with flags := w.sp.flags ||| BitVec.ofNat 32 (condBits c.conds), steps := w.sp.steps + 1 } } := by
  obtain ⟨ws, h⟩ := Warp.releaseMasks_keeps _ (c.buf.flatMap Buf.maskWritten)
  exact ⟨ws, h⟩

/-- Following a loop's body leaves warps, gangs, launches and memory. -/
theorem State.followLoop_frame (s : State) (u : Nat) :
    (s.followLoop u).warps = s.warps ∧ (s.followLoop u).gangs = s.gangs ∧ (s.followLoop u).launches = s.launches ∧ (s.followLoop u).mem = s.mem := by
  obtain ⟨Q, h, -⟩ := s.followLoop_same u
  rw [h]
  exact ⟨rfl, rfl, rfl, rfl⟩

@[simp] theorem State.unpark_gangs (s : State) (u : Nat) : (s.unpark u).gangs = s.gangs := by
  unfold State.unpark
  dsimp only
  split <;> split <;> rfl

@[simp] theorem State.unpark_launches (s : State) (u : Nat) : (s.unpark u).launches = s.launches := by
  unfold State.unpark
  dsimp only
  split <;> split <;> rfl

@[simp] theorem State.warp_closed_self (s : State) (u : Nat) (c : StepCtx) :
    (s.closed u c).warp u = Warp.closeStep { s.warp u with tryPort := none, tryHeap := none, tryAway := false } c := by
  obtain ⟨hwarps, -⟩ := (((s.unpark u).updWarp u (fun w => w.closeStep c)).countStep u).followLoop_frame u
  rw [← State.warp_unpark_self]
  exact (congrArg (fun m : Map Warp => m.get u) hwarps).trans (State.warp_updWarp_self (s.unpark u) u (fun w => w.closeStep c))

@[simp] theorem State.closed_mem (s : State) (u : Nat) (c : StepCtx) : (s.closed u c).mem = s.mem := by
  obtain ⟨-, -, -, hmem⟩ := (((s.unpark u).updWarp u (fun w => w.closeStep c)).countStep u).followLoop_frame u
  exact hmem.trans (s.unpark_mem u)

/-- The close counts the step for the warp's gang. -/
theorem State.gang_closed (s : State) (u : Nat) (c : StepCtx) :
    (s.closed u c).gang (s.warp u).gang =
      { s.gang (s.warp u).gang with
        wdog := 0, count := (s.gang (s.warp u).gang).count + 1, lastCommit := some (s.warp u).wid, turnOf := none } := by
  obtain ⟨-, hgangs, -⟩ := (((s.unpark u).updWarp u (fun w => w.closeStep c)).countStep u).followLoop_frame u
  obtain ⟨ws, hclose⟩ := Warp.closeStep_same ((s.unpark u).warp u) c
  refine (congrArg (fun m : Map Gang => m.get (s.warp u).gang) hgangs).trans ?_
  unfold State.countStep
  rw [State.warp_updWarp_self, hclose, State.warp_unpark_self]
  refine (State.gang_updGang_self _ _ _).trans ?_
  unfold State.gang
  rw [State.updWarp, State.setWarp_gangs, State.unpark_gangs]

theorem State.launch_closed (s : State) (u : Nat) (c : StepCtx) (n : Nat) : (s.closed u c).launch n = s.launch n := by
  obtain ⟨-, -, hlaunches, -⟩ := (((s.unpark u).updWarp u (fun w => w.closeStep c)).countStep u).followLoop_frame u
  exact congrArg (fun m : Map Launch => m.get n) (hlaunches.trans (s.unpark_launches u))

/-- The close of a step keeps its boundary quiet. -/
theorem State.quietAt_closed {s : State} {u : Nat} (c : StepCtx) (h : s.quietAt u) : (s.closed u c).quietAt u := by
  obtain ⟨hwait, hstepping, hlanes, hhalted, hwd, hreplay⟩ := h
  obtain ⟨ws, hclose⟩ := Warp.closeStep_same { s.warp u with tryPort := none, tryHeap := none, tryAway := false } c
  have hwarp := (s.warp_closed_self u c).trans hclose
  have hgang := s.gang_closed u c
  unfold State.quietAt
  rw [hwarp]
  refine ⟨hwait, hstepping, hlanes, ?_⟩
  show ((s.closed u c).gang (s.warp u).gang).halted = false ∧ ((s.closed u c).gang (s.warp u).gang).wdPend = false ∧
    ((s.closed u c).launch ((s.closed u c).gang (s.warp u).gang).launch).replay = false
  rw [hgang, State.launch_closed]
  exact ⟨hhalted, hwd, hreplay⟩

/-- The commit at a quiet boundary of a step without a TRAP: the buffer applied and the step closed. -/
theorem State.commitNow_quiet (s : State) (u : Nat) (h : (s.applied u).quietAt u) (hb : ∀ imm m, Buf.softTrap imm m ∉ (s.warp u).step.buf) :
    s.commitNow u = (s.applied u).closed u (s.warp u).step := by
  have hq := State.quietAt_closed (s.warp u).step h
  have ⟨_, _, hlanes, _⟩ := hq
  rw [State.commitNow_eq]
  dsimp only
  rw [if_neg hlanes, State.boundary_quiet _ u _ _ hq hb]

/-! ### WRSR (R266) -/

/-- An operation that reads no tagged word goes on. -/
theorem State.checked_clear (s : State) (i : Instr) (m : Mask) (k : State → State) (h : s.me.poisoned i m = none) : s.checked i m k = k s := by
  unfold State.checked State.orPoison
  rw [h]

/-- A special register write changes special registers alone, and never STEPS. -/
theorem Warp.writeSr_same (w : Warp) (n : Nat) (x : Word) : ∃ sp, w.writeSr n x = { w with sp := sp } ∧ sp.steps = w.sp.steps := by
  unfold Warp.writeSr
  split <;> exact ⟨_, rfl, rfl⟩

theorem Warp.flags_writeSr (w : Warp) (n : Nat) (x : Word) : (w.writeSr n x).sp.flags = if n = 0x0A then x &&& 0x7F#32 else w.sp.flags := by
  unfold Warp.writeSr
  split <;> simp_all

theorem Warp.fpctl_writeSr (w : Warp) (n : Nat) (x : Word) : (w.writeSr n x).sp.fpctl = if n = 0x0B then x &&& 0xFF#32 else w.sp.fpctl := by
  unfold Warp.writeSr
  split <;> simp_all

/-- A state that differs neither in gangs and launches nor in what the boundary of a warp turns on has the same quiet boundary. -/
theorem State.quietAt_congr {s t : State} {u : Nat} (h : s.quietAt u) (hgangs : t.gangs = s.gangs) (hlaunches : t.launches = s.launches)
    (hwarp : ∃ sp step, t.warp u = { s.warp u with sp := sp, step := step }) : t.quietAt u := by
  obtain ⟨sp, step, hwarp⟩ := hwarp
  unfold State.quietAt State.gang State.launch at *
  rw [hwarp, hgangs, hlaunches]
  exact h

/-- The warp where its step goes on, before the buffer is applied. -/
def Warp.advanced (w : Warp) : Warp := w.setVpc w.step.issue (fun l => w.step.nexts.getD l w.step.stepEnd)

theorem State.applied_sr (s : State) (u n : Nat) (x : Word) (h : (s.warp u).step.buf = [.sr n x]) :
    s.applied u = (s.updWarp u Warp.advanced).updWarp u (fun w => w.writeSr n x) := by
  unfold State.applied
  dsimp only
  rw [h]
  rfl

theorem State.quietAt_applied_sr {s : State} {u n : Nat} {x : Word} (h : (s.warp u).step.buf = [.sr n x]) (hq : s.quietAt u) :
    (s.applied u).quietAt u := by
  obtain ⟨sp, hwrite, -⟩ := (s.warp u).advanced.writeSr_same n x
  rw [State.applied_sr s u n x h]
  refine State.quietAt_congr hq rfl rfl ⟨sp, (s.warp u).step, ?_⟩
  rw [State.warp_updWarp_self, State.warp_updWarp_self, hwrite]
  rfl

/-- A step whose one effect is a special register write commits at a quiet boundary: of the special registers change the one written, the lane program
counters and STEPS, and no general register and no byte changes (R27, R266). -/
theorem State.commit_sr (s : State) (u n : Nat) (x : Word) (hb : (s.warp u).step.buf = [.sr n x]) (hc : (s.warp u).step.conds = []) (hq : s.quietAt u) :
    ((s.commit u).warp u).regs = (s.warp u).regs ∧
    ((s.commit u).warp u).sp = { ((s.warp u).advanced.writeSr n x).sp with steps := (s.warp u).sp.steps + 1 } ∧ (s.commit u).mem = s.mem := by
  have hcommit : s.commit u = (s.applied u).closed u (s.warp u).step := by
    rw [State.commit_now, State.commitNow_quiet _ _ (State.quietAt_applied_sr hb hq)]
    · simp [hb]
    · exact Warp.enabledConds_nil _ (by simp [hc])
    · simp [State.fencesOk, hb]
  have hwarp : (s.applied u).warp u = (s.warp u).advanced.writeSr n x := by
    rw [State.applied_sr s u n x hb, State.warp_updWarp_self, State.warp_updWarp_self]
  obtain ⟨sp, hwrite, hsteps⟩ := (s.warp u).advanced.writeSr_same n x
  obtain ⟨ws, hclose⟩ := Warp.closeStep_same { (s.warp u).advanced.writeSr n x with tryPort := none, tryHeap := none, tryAway := false } (s.warp u).step
  rw [hcommit, State.warp_closed_self, State.closed_mem, hwarp, hclose, hc, hwrite]
  refine ⟨rfl, ?_, by rw [State.applied_sr s u n x hb]; rfl⟩
  show { sp with flags := sp.flags ||| 0#32, steps := sp.steps + 1 } = { sp with steps := (s.warp u).sp.steps + 1 }
  rw [BitVec.or_zero, hsteps]
  rfl

/-- WRSR as the only operation of the step of a warp at rest (R34, R35, R266). -/
theorem State.exec_wrsr (s : State) (o : IOp) (hr : s.atRest) (hb : s.me.step.buf = []) (hc : s.me.step.conds = []) (he : o.e = true)
    (hread : s.readable (.wrsr o) .all) :
    ∃ t, exec (.wrsr o) s = .next t ∧ (t.warp s.actor).regs = s.me.regs ∧ t.mem = s.mem ∧
      ∃ w : Warp, (∃ vpc, w.sp = { s.me.sp with vpc := vpc }) ∧
        (t.warp s.actor).sp = { (w.writeSr o.imm.toNat (s.srcW o.s0 0)).sp with steps := s.me.sp.steps + 1 } := by
  have hexec : exec (.wrsr o) s = .next (s.finish true none [.sr o.imm.toNat (s.srcW o.s0 0)] []) := by
    rw [← he]
    exact congrArg Host.Outcome.next (s.checked_clear _ _ _ hread)
  refine ⟨_, hexec, ?_⟩
  rw [State.finish_last]
  generalize hs1 : s.finish false none [.sr o.imm.toNat (s.srcW o.s0 0)] [] = s1
  obtain ⟨step, hwarp, hbuf, hconds⟩ : ∃ step : StepCtx, s1.warp s.actor = { s.me with step := step } ∧
      step.buf = [.sr o.imm.toNat (s.srcW o.s0 0)] ∧ step.conds = [] := by
    rw [← hs1, State.finish_more]
    exact ⟨_, State.me_updMe s _, by simp [hb], by simp [hc]⟩
  have hquiet : s1.quietAt s.actor :=
    State.quietAt_congr (State.quietAt_of_atRest hr) (by rw [← hs1]; rfl) (by rw [← hs1]; rfl) ⟨s.me.sp, step, hwarp⟩
  obtain ⟨hregs, hsp, hmem⟩ := s1.commit_sr s.actor _ _ (by rw [hwarp]; exact hbuf) (by rw [hwarp]; exact hconds) hquiet
  refine ⟨hregs.trans (by rw [hwarp]), hmem.trans (by rw [← hs1]; rfl), (s1.warp s.actor).advanced, ?_, hsp.trans (by rw [hwarp])⟩
  rw [hwarp]
  exact ⟨_, rfl⟩

/-! ### RDSR (R33, R266, R374) -/

@[simp] theorem State.logInput_me (s : State) (g k w : Nat) (m : Mask) (d : List Byte) : (s.logInput g k w m d).me = s.me := by
  unfold State.logInput
  dsimp only
  split <;> rfl

@[simp] theorem State.logInput_phc (s : State) (g k w : Nat) (m : Mask) (d : List Byte) : (s.logInput g k w m d).phc = s.phc := by
  unfold State.logInput
  dsimp only
  split <;> rfl

/-- The logging of a read changes no snapshot. -/
theorem State.snapBuf_logRead (s : State) (u : Nat) (m : Mask) (d : List Byte) (n : Nat) : (s.logRead u m d).snapBuf n = s.snapBuf n := by
  simp only [State.snapBuf, State.phcNs, State.phcSec, State.logRead, State.logInput_me, State.logInput_phc]

/-- RDSR of a scalar special register gives its value to b0 and, unless V = 1, to D, and takes its snapshots; a replay gang may log the read. -/
theorem State.exec_rdsr_scalar (s : State) (o : IOp) (n : Nat) (hn : n < 64 ∧ n ≠ 0 ∧ n ≠ 0x0E) (h : o.imm = BitVec.ofNat 32 n) :
    ∃ t, (t = s ∨ t = s.logRead s.actor s.me.step.issue (natBytes 4 (s.specialReg n).toNat)) ∧
      exec (.rdsr o) s = .next (t.finish o.e (some (Lanes.splat (s.specialReg n)))
        (s.snapBuf n ++ if o.v then [] else [.scal o.d.toNat (s.specialReg n)]) []) := by
  obtain ⟨hlt, h0, hE⟩ := hn
  have himm : o.imm.toNat = n := by rw [h, BitVec.toNat_ofNat]; omega
  show ∃ t, _ ∧ execRdsr o s = _
  unfold execRdsr
  simp only [himm, if_neg h0, if_neg hE]
  by_cases hlog : srLogged n = true
  · exact ⟨_, .inr rfl, by rw [if_pos hlog, State.snapBuf_logRead]⟩
  · exact ⟨_, .inl rfl, by rw [if_neg hlog]⟩

/-- No lane raises a condition without flags. -/
theorem condsOf_zero (idx : Nat) (m : Mask) (fl : Nat → Nat) (h : ∀ l, fl l = 0) : condsOf idx m fl = [] := by
  simp [condsOf, h]

/-- A 32-bit vector result without flags, as its latch value and its write. -/
theorem State.putV_plain (s : State) (e v : Bool) (d : Nat) (m : Mask) (f : Nat → Nat) :
    s.putV e v d m false (fun l => (f l, 0)) = s.finish e (some (lowWords f)) (vecWrites v d false m f) [] := by
  have hval : lowWords (fun l => (((List.range 32).map (fun l => (f l, 0))).getD l (0, 0)).1) = lowWords f := by
    unfold lowWords Lanes.ofFn
    refine List.map_congr_left (fun l hl => ?_)
    simp [List.mem_range.1 hl]
  have hflags : ∀ l, (((List.range 32).map (fun l => (f l, 0))).getD l (0, 0)).2 = 0 := fun l => by
    by_cases hl : l < 32
    · simp [hl]
    · simp [hl]
  unfold State.putV vecWrites
  dsimp only
  rw [hval, condsOf_zero _ _ _ hflags]
  rfl

theorem State.exec_rdsr_laneid (s : State) (o : IOp) (h : o.imm = 0x00#32) :
    exec (.rdsr o) s = .next (s.finish o.e (some (lowWords (fun l => l))) (vecWrites o.v o.d.toNat false s.me.step.issue (fun l => l)) []) := by
  show execRdsr o s = _
  unfold execRdsr
  rw [h]
  exact congrArg Host.Outcome.next (s.putV_plain _ _ _ _ _)

theorem State.exec_rdsr_vpc (s : State) (o : IOp) (h : o.imm = 0x0E#32) :
    exec (.rdsr o) s = .next (s.finish o.e (some (lowWords (fun l => (s.me.vpcAt l).toNat)))
      (vecWrites o.v o.d.toNat false s.me.step.issue (fun l => (s.me.vpcAt l).toNat)) []) := by
  show execRdsr o s = _
  unfold execRdsr
  rw [h]
  exact congrArg Host.Outcome.next (s.putV_plain _ _ _ _ _)

/-- Settles O26: each register of RDSR is a row of `specialReg`, and WRSR's write is the one effect of its commit. -/
theorem specialRegisters : Obligations.SpecialRegisters := by
  refine ⟨fun s o => ?_, fun s o hr hb hc he hread => ?_⟩
  · have row (n : Nat) (hn : n < 64 ∧ n ≠ 0 ∧ n ≠ 0x0E) := s.exec_rdsr_scalar o n hn
    refine ⟨s.exec_rdsr_laneid o, s.exec_rdsr_vpc o, row 0x01 (by decide), row 0x02 (by decide), row 0x03 (by decide), row 0x04 (by decide),
      row 0x05 (by decide), row 0x06 (by decide), row 0x07 (by decide), row 0x08 (by decide), row 0x09 (by decide), row 0x0A (by decide),
      row 0x0B (by decide), row 0x0C (by decide), row 0x0D (by decide), row 0x0F (by decide), row 0x10 (by decide), row 0x11 (by decide),
      row 0x12 (by decide), row 0x13 (by decide), row 0x14 (by decide), row 0x15 (by decide), row 0x20 (by decide), row 0x21 (by decide),
      row 0x16 (by decide), fun h howner => ?_, fun c h howner => ?_, row 0x23 (by decide), row 0x24 (by decide), row 0x25 (by decide),
      row 0x26 (by decide)⟩
    · have hvalue : s.specialReg 0x22 = 0xFFFFFFFF#32 := by simp only [State.specialReg, howner]
      exact hvalue ▸ row 0x22 (by decide) h
    · have hvalue : s.specialReg 0x22 = BitVec.ofNat 32 c := by simp only [State.specialReg, howner]
      exact hvalue ▸ row 0x22 (by decide) h
  · obtain ⟨t, hexec, hregs, hmem, w, ⟨vpc, hw⟩, hsp⟩ := s.exec_wrsr o hr hb hc he hread
    refine ⟨t, hexec, State.sameBytes_of_mem hmem, Warp.vword_of_regs _ _ hregs, Warp.sword_of_regs _ _ hregs, ?_⟩
    rw [hsp]
    have himm (n : Nat) (hn : n < 64) : o.imm.toNat = n ↔ o.imm = BitVec.ofNat 32 n := by
      rw [← BitVec.toNat_inj, BitVec.toNat_ofNat, Nat.mod_eq_of_lt (by omega)]
    simp only [Warp.flags_writeSr, Warp.fpctl_writeSr, himm 0x0A (by decide), himm 0x0B (by decide), hw]
    refine ⟨fun h => if_pos h, fun h => if_neg h, fun h => if_pos h, fun h => if_neg h, ?_, ?_, ?_, ?_, ?_, ?_, ?_, ?_, ?_, ?_, trivial⟩ <;>
      exact fun h => by rw [h]; rfl

end Sys2Proof.Machine
end

section
/-! Floating instructions and conversions, element by element (R99 to R101, R120, R123, R125, R126, R131). -/
set_option autoImplicit false

namespace Sys2Proof.Machine

/-! ### The result of a vector operation (R25, R26, R51) -/

/-- Words of a value by lane are those of the lanes below 32. -/
theorem lowWords_congr {f g : Nat → Nat} (h : ∀ l, l < 32 → f l = g l) : lowWords f = lowWords g :=
  List.map_congr_left (fun l hl => congrArg (BitVec.ofNat 32) (h l (List.mem_range.1 hl)))

theorem highWords_congr {f g : Nat → Nat} (h : ∀ l, l < 32 → f l = g l) : highWords f = highWords g :=
  List.map_congr_left (fun l hl => congrArg (fun x => BitVec.ofNat 32 (x / 2 ^ 32)) (h l (List.mem_range.1 hl)))

/-- The conditions turn on the flags of the lanes below 32. -/
theorem condsOf_congr (idx : Nat) (m : Mask) {f g : Nat → Nat} (h : ∀ l, l < 32 → f l = g l) : condsOf idx m f = condsOf idx m g := by
  have hmap : (List.range 32).map (fun l => if m.has l then f l else 0) = (List.range 32).map (fun l => if m.has l then g l else 0) :=
    List.map_congr_left (fun l hl => by rw [h l (List.mem_range.1 hl)])
  unfold condsOf
  rw [hmap]

/-- A vector result as its latch value, its writes and its conditions. -/
theorem State.putV_eq (s : State) (e v : Bool) (d : Nat) (m : Mask) (wide : Bool) (f : Nat → Flagged) :
    s.putV e v d m wide f = s.finish e (some (lowWords (fun l => (f l).1))) (vecWrites v d wide m (fun l => (f l).1))
      (condsOf s.me.step.idx m (fun l => (f l).2)) := by
  have hlane (l : Nat) (hl : l < 32) : ((List.range 32).map f).getD l (0, 0) = f l := by simp [hl]
  have hval (l : Nat) (hl : l < 32) := congrArg Prod.fst (hlane l hl)
  unfold State.putV vecWrites
  dsimp only
  rw [lowWords_congr hval, highWords_congr hval, condsOf_congr _ _ (fun l hl => congrArg Prod.snd (hlane l hl))]

/-- A vector operation on readable operands gives each lane the value and the flags of its function. -/
theorem vectorResult_of_vop {i : Instr} {o : NOp} {s : State} {wide : Bool} {f : Nat → Flagged} {P : Nat → Nat → Nat → Prop}
    (hexec : exec i s = .next (s.vop i o wide f)) (hread : s.readable i o.g) (hlane : ∀ l, P l (f l).1 (f l).2) :
    vectorResult i o s wide P := by
  refine ⟨fun l => (f l).1, fun l => (f l).2, fun l _ => hlane l, ?_⟩
  rw [hexec, State.vop, State.checked_clear _ _ _ _ hread, State.putV_eq]

/-! ### Floating arithmetic (R120, R125, R126) -/

/-- A fold that adds packed elements and joins their flags gives the packed value and the joined flags. -/
theorem foldl_elements (w : Nat) (f : Nat → Flagged) (ks : List Nat) (a : Flagged) :
    ks.foldl (fun acc k => (acc.1 + (f k).1 * 2 ^ (w * k), acc.2 ||| (f k).2)) a =
      (ks.foldl (fun x k => x + (f k).1 * 2 ^ (w * k)) a.1, ks.foldl (fun x k => x ||| (f k).2) a.2) := by
  induction ks generalizing a with
  | nil => rfl
  | cons k ks ih => exact ih _

/-- INVALID for a signalling NaN, source by source. -/
theorem sigOf_eq (n : Nat) (a b c : XReal) :
    sigOf n a b c = (sigFlag a ||| (if 2 ≤ n then sigFlag b else 0) ||| (if 3 ≤ n then sigFlag c else 0)) := by
  unfold sigOf sigFlag
  by_cases h2 : 2 ≤ n <;> by_cases h3 : 3 ≤ n <;> cases a.isSig <;> cases b.isSig <;> cases c.isSig <;> simp [h2, h3]

/-- One element of a floating instruction: its exact value rounded once, with the flags of its operands, of its forming and of the rounding. -/
def fltElement (t : Ty) (n : Nat) (m : Rnd) (g : FltFn) (a b c : XReal) : Flagged :=
  let x := g m a b c
  ((round (Fmt.ofTy t) m false x.1).1, sigOf n a b c ||| x.2 ||| (round (Fmt.ofTy t) m false x.1).2)

theorem fltLane_eq (t : Ty) (n : Nat) (m : Rnd) (g : FltFn) (a b c : Nat) :
    let el (x k : Nat) : XReal := decodeVal (Fmt.ofTy t) (elemNat t.bits k x)
    fltLane t n m g a b c = (packed t (fun k => (fltElement t n m g (el a k) (el b k) (el c k)).1),
      joined t (fun k => (fltElement t n m g (el a k) (el b k) (el c k)).2)) := by
  intro el
  rw [packed, joined, ← foldl_elements t.bits (fun k => fltElement t n m g (el a k) (el b k) (el c k)) _ (0, 0)]
  simp only [fltLane, fltElement, sigOf_eq, Nat.or_assoc, el]

/-- A floating instruction rounds the exact value of each element once (R120). -/
theorem vectorResult_vflt {i : Instr} {o : NOp} {s : State} {n : Nat} {g : FltFn} (hexec : exec i s = .next (s.vflt i o n g))
    (hread : s.readable i o.g) :
    vectorResult i o s o.ty.is64 (fun l x fl =>
      let r (k : Nat) := fltElement o.ty n o.rnd g (s.felement o.ty o.s0 l k) (s.felement o.ty o.s1 l k) (s.felement o.ty o.s2 l k)
      x = packed o.ty (fun k => (r k).1) ∧ fl = joined o.ty (fun k => (r k).2)) :=
  vectorResult_of_vop hexec hread (fun l => Prod.mk.inj (fltLane_eq o.ty n o.rnd g (s.src o.ty o.s0 l) (s.src o.ty o.s1 l) (s.src o.ty o.s2 l)))

/-- Settles O13: each row of `floatRows` is a floating instruction whose element function is the row's exact value. -/
theorem floatingArithmetic : Obligations.FloatingArithmetic := by
  intro p hp o s _ hread
  simp only [floatRows, List.mem_cons, List.not_mem_nil, or_false] at hp
  rcases hp with rfl | rfl | rfl | rfl | rfl | rfl | rfl <;> exact vectorResult_vflt rfl hread

/-! ### Conversions (R100, R101, R131) -/

/-- The integer that an integer code stands for (R85). -/
theorem decodeVal_int (ss : Bool) (sb c : Nat) : decodeVal (.int ss sb) c = XReal.ofInt (readInt ss sb c) := by
  unfold decodeVal readInt
  push_cast
  rfl

/-- `sat()` clamps to the range and raises CONV_RANGE when that changes the value (R100). -/
theorem satInt_eq (w : Nat) (sg : Bool) (z : Int) :
    let lo : Int := if sg then -(2 ^ (w - 1) : Int) else 0
    let hi : Int := if sg then 2 ^ (w - 1) - 1 else 2 ^ w - 1
    satInt w sg z = (max lo (min hi z), if z < lo ∨ hi < z then fCONV_RANGE else 0) := by
  intro lo hi
  have hrange : lo ≤ hi := by
    have h1 : (0 : Int) < 2 ^ (w - 1) := Int.pow_pos (by decide)
    have h2 : (0 : Int) < 2 ^ w := Int.pow_pos (by decide)
    cases sg <;> simp only [lo, hi, if_true, if_false, Bool.false_eq_true] <;> omega
  show (if z < lo then (lo, fCONV_RANGE) else if hi < z then (hi, fCONV_RANGE) else (z, 0)) = _
  split
  case isTrue hlow => rw [if_pos (.inl hlow), Int.min_eq_right (by omega), Int.max_eq_left (by omega)]
  case isFalse hlow =>
    split
    case isTrue hhigh => rw [if_pos (.inr hhigh), Int.min_eq_left (by omega), Int.max_eq_right hrange]
    case isFalse hhigh => rw [if_neg (by omega), Int.min_eq_right (by omega), Int.max_eq_right (by omega)]

/-- A conversion that has a real format on either side rounds the value of the source code (R101). -/
theorem convert_real {df sf : Fmt} (h : df.isInt = false ∨ sf.isInt = false) (m : Rnd) (sat : Bool) (c : Nat) :
    convert df sf m sat c = ((round df m sat (decodeVal sf c)).1, (round df m sat (decodeVal sf c)).2 ||| sigFlag (decodeVal sf c)) := by
  cases df <;> cases sf <;> simp [Fmt.isInt] at h <;> rfl

/-- A conversion between integers keeps the low bits of the source's integer, or of its clamped value (R100, R101). -/
theorem convert_int (ds ss : Bool) (db sb : Nat) (m : Rnd) (sat : Bool) (c : Nat) :
    convert (.int ds db) (.int ss sb) m sat c =
      if sat then (keep db (satInt db ds (readInt ss sb c)).1, (satInt db ds (readInt ss sb c)).2) else (keep db (readInt ss sb c), 0) := by
  have hz : (if decide (readInt ss sb c < 0) then -((readInt ss sb c).natAbs : Int) else (readInt ss sb c).natAbs) = readInt ss sb c := by
    simp only [decide_eq_true_eq]
    split <;> omega
  unfold convert
  rw [decodeVal_int]
  simp only [XReal.ofInt, hz]

/-- A code of a format that is not complex converts as one value, a complex one part by part (R91, R131). -/
theorem convertCode_eq (dst src : BitVec 6) (m : Rnd) (sat : Bool) (v : Nat) :
    let w := (Fmt.ofCode src).width
    let one (u : Nat) : Flagged := convert (Fmt.ofCode dst) (Fmt.ofCode src) m sat u
    let r := convertCode dst src m sat v
    (fmtIsComplex dst = false → r.1 = (one (v % 2 ^ w)).1 ∧ r.2 = (one (v % 2 ^ w)).2) ∧
    (fmtIsComplex dst = true → r.1 = (one (v % 2 ^ w)).1 + (one (v / 2 ^ w % 2 ^ w)).1 * 2 ^ (Fmt.ofCode dst).width ∧
      r.2 = (one (v % 2 ^ w)).2 ||| (one (v / 2 ^ w % 2 ^ w)).2) := by
  unfold convertCode
  exact ⟨fun h => by simp [h], fun h => by simp [h]⟩

/-- The value that VCVT reads: a floating constant is a code of the source format (R131). -/
def State.vcvtSource (s : State) (src : BitVec 6) (x : Src) (l : Nat) : Nat :=
  match x with
  | .fc k => fconst (Fmt.ofCode src) k.toNat
  | y => s.src (if fmtBits src == 64 then .n64 else .n32) y l

theorem State.vcvtSource_of_not_fc (s : State) (src : BitVec 6) {x : Src} (l : Nat) (h : ∀ k, x ≠ .fc k) :
    s.vcvtSource src x l = s.src (if fmtBits src = 64 then .n64 else .n32) x l := by
  unfold State.vcvtSource
  split
  case h_1 k => exact absurd rfl (h k)
  case h_2 => simp only [beq_iff_eq]

/-- Settles O16: `convertCode` converts part by part, and one part by `convert_real` or `convert_int`. -/
theorem conversions : Obligations.Conversions := by
  refine ⟨fun o s dc sc _ hread hdc hsc => ?_, fun df sf m sat c => ⟨fun h => convert_real h m sat c, fun ds db ss sb hdf hsf _ _ => ?_⟩⟩
  · subst hdc hsc
    exact vectorResult_of_vop (show exec (.vcvt o) s = execVcvt o s from rfl) hread (fun l =>
      ⟨s.vcvtSource _ o.s0 l, fun h => s.vcvtSource_of_not_fc _ l h, fun k hk => by rw [hk]; rfl, convertCode_eq _ _ _ _ _⟩)
  · subst hdf hsf
    have hz : readInt ss sb c = if ss = true ∧ 2 ^ (sb - 1) ≤ c % 2 ^ sb then (c % 2 ^ sb : Int) - 2 ^ sb else c % 2 ^ sb := by
      simp only [readInt, Bool.and_eq_true, decide_eq_true_eq]
    intro z lo hi
    rw [convert_int, hz, satInt_eq]
    exact ⟨fun h => by rw [h]; rfl, fun h => by rw [h]; rfl⟩

end Sys2Proof.Machine
end

section
/-! Rounding, the values of codes and exact arithmetic (R88, R98, R99, R102, R121, R125, R135). -/
set_option autoImplicit false

namespace Sys2Proof.Machine

/-! ### Rounding to an integer magnitude (R98) -/

/-- RUP and RDN take the ceiling of the magnitude on their side of zero, the floor on the other. -/
theorem roundMag_rup (neg : Bool) (n d : Nat) : roundMag .rup neg n d = if neg = false ∧ n % d ≠ 0 then n / d + 1 else n / d := by
  simp only [roundMag, Bool.and_eq_true, Bool.not_eq_true', bne_iff_ne]

theorem roundMag_rdn (neg : Bool) (n d : Nat) : roundMag .rdn neg n d = if neg = true ∧ n % d ≠ 0 then n / d + 1 else n / d := by
  simp only [roundMag, Bool.and_eq_true, bne_iff_ne]

/-- RNE goes up past the half, and at the half from an odd floor. -/
theorem roundMag_rne (neg : Bool) (n d : Nat) :
    roundMag .rne neg n d = if d < 2 * (n % d) ∨ 2 * (n % d) = d ∧ n / d % 2 = 1 then n / d + 1 else n / d := by
  simp only [roundMag, Bool.or_eq_true, Bool.and_eq_true, decide_eq_true_eq, beq_iff_eq]

section RoundMag
variable {n d : Nat} (hd : 0 < d)
include hd

/-- The floor of a quotient. -/
theorem floor_bounds {k : Nat} (hk : k = n / d) : k * d ≤ n ∧ n < (k + 1) * d := by
  subst hk
  exact ⟨Nat.div_mul_le_self n d, (Nat.div_lt_iff_lt_mul hd).1 (Nat.lt_succ_self _)⟩

/-- The quotient, or the next integer when it is not exact, is the ceiling. -/
theorem ceil_bounds {k : Nat} (hk : k = if n % d ≠ 0 then n / d + 1 else n / d) : k * d < n + d ∧ n ≤ k * d := by
  have hn := Nat.div_add_mod' n d
  have hr := Nat.mod_lt n hd
  subst hk
  split
  · rw [Nat.add_mul]
    omega
  · omega

/-- RNE takes a nearest integer, and the even one of two. -/
theorem roundMag_rne_nearest (neg : Bool) :
    (2 * n ≤ (2 * roundMag .rne neg n d + 1) * d ∧ 2 * roundMag .rne neg n d * d ≤ 2 * n + d) ∧
    ((2 * n = (2 * roundMag .rne neg n d + 1) * d ∨ 2 * roundMag .rne neg n d * d = 2 * n + d) → roundMag .rne neg n d % 2 = 0) := by
  have hn := Nat.div_add_mod' n d
  have hr := Nat.mod_lt n hd
  rw [roundMag_rne]
  split <;> simp only [Nat.add_mul, Nat.mul_add, Nat.mul_assoc] <;> omega

/-- An integer is delivered as it stands by every mode. -/
theorem roundMag_exact (m : Rnd) (neg : Bool) (k : Nat) : roundMag m neg (k * d) d = k := by
  have hq : k * d / d = k := Nat.mul_div_cancel k hd
  have hr : k * d % d = 0 := Nat.mul_mod_left k d
  cases m
  case rtz => exact hq
  case rup => rw [roundMag_rup, hr, hq, if_neg (by omega)]
  case rdn => rw [roundMag_rdn, hr, hq, if_neg (by omega)]
  case rne => rw [roundMag_rne, hr, hq, if_neg (by omega)]

end RoundMag

/-- The bounds of each mode, with the ceiling on the side of RUP and RDN. -/
theorem roundMag_directed (n : Nat) {d : Nat} (hd : 0 < d) :
    (roundMag .rup false n d * d < n + d ∧ n ≤ roundMag .rup false n d * d) ∧
    (roundMag .rup true n d * d ≤ n ∧ n < (roundMag .rup true n d + 1) * d) ∧
    (roundMag .rdn true n d * d < n + d ∧ n ≤ roundMag .rdn true n d * d) ∧
    (roundMag .rdn false n d * d ≤ n ∧ n < (roundMag .rdn false n d + 1) * d) := by
  refine ⟨ceil_bounds hd ?_, floor_bounds hd ?_, ceil_bounds hd ?_, floor_bounds hd ?_⟩
  · simp only [roundMag_rup, true_and]
  · exact (roundMag_rup true n d).trans (if_neg (fun h => Bool.noConfusion h.1))
  · simp only [roundMag_rdn, true_and]
  · exact (roundMag_rdn false n d).trans (if_neg (fun h => Bool.noConfusion h.1))

/-! ### Powers of two as fractions -/

theorem pow2_nonneg {e : Int} (h : 0 ≤ e) : pow2 e = (2 ^ e.toNat, 1) := if_pos h

theorem pow2_neg {e : Int} (h : e < 0) : pow2 e = (1, 2 ^ (-e).toNat) := if_neg (by omega)

theorem pow2_pos (e : Int) : 0 < (pow2 e).1 ∧ 0 < (pow2 e).2 := by
  rcases Int.lt_or_le e 0 with h | h
  · rw [pow2_neg h]
    exact ⟨Nat.one_pos, Nat.two_pow_pos _⟩
  · rw [pow2_nonneg h]
    exact ⟨Nat.two_pow_pos _, Nat.one_pos⟩

/-- The fraction of a difference of exponents. -/
theorem pow2_sub (a b : Nat) : (pow2 ((a : Int) - b)).1 * 2 ^ b = 2 ^ a * (pow2 ((a : Int) - b)).2 := by
  rcases Int.lt_or_le ((a : Int) - b) 0 with h | h
  · rw [pow2_neg h, Nat.one_mul, ← Nat.pow_add]
    congr 1
    omega
  · rw [pow2_nonneg h, Nat.mul_one, ← Nat.pow_add]
    congr 1
    omega

/-- Greater exponents give greater fractions. -/
theorem pow2_mono {p q : Int} (h : p ≤ q) : (pow2 p).1 * (pow2 q).2 ≤ (pow2 q).1 * (pow2 p).2 := by
  obtain ⟨a, b, c, rfl, rfl⟩ : ∃ a b c : Nat, p = (a : Int) - c ∧ q = (b : Int) - c :=
    ⟨(p + p.natAbs + q.natAbs).toNat, (q + p.natAbs + q.natAbs).toNat, p.natAbs + q.natAbs, by omega, by omega⟩
  generalize hp : pow2 ((a : Int) - c) = x
  generalize hq : pow2 ((b : Int) - c) = y
  have hx : x.1 * 2 ^ c = 2 ^ a * x.2 := hp ▸ pow2_sub a c
  have hy : y.1 * 2 ^ c = 2 ^ b * y.2 := hq ▸ pow2_sub b c
  refine Nat.le_of_mul_le_mul_right ?_ (Nat.two_pow_pos c)
  calc x.1 * y.2 * 2 ^ c = x.1 * 2 ^ c * y.2 := Nat.mul_right_comm _ _ _
    _ = 2 ^ a * (x.2 * y.2) := by rw [hx, Nat.mul_assoc]
    _ ≤ 2 ^ b * (x.2 * y.2) := Nat.mul_le_mul_right _ (Nat.pow_le_pow_right Nat.two_pos (by omega))
    _ = y.1 * 2 ^ c * x.2 := by rw [hy, Nat.mul_assoc, Nat.mul_comm x.2]
    _ = y.1 * x.2 * 2 ^ c := Nat.mul_right_comm _ _ _

/-- The binade of a fraction over a power of two. -/
theorem floorLog2_two_pow {n : Nat} (hn : 0 < n) (b : Nat) : floorLog2 n (2 ^ b) = Nat.log2 n - b := by
  unfold floorLog2
  rw [Nat.log2_two_pow]
  dsimp only
  rw [pow2_sub]
  exact if_neg (Nat.not_lt.2 (Nat.mul_le_mul_right _ (Nat.log2_self_le (Nat.ne_of_gt hn))))

theorem log2_mul_two_pow {k : Nat} (hk : 0 < k) (a : Nat) : Nat.log2 (k * 2 ^ a) = Nat.log2 k + a := by
  have hpos := Nat.two_pow_pos a
  rw [Nat.log2_eq_iff (Nat.ne_of_gt (Nat.mul_pos hk hpos)), Nat.add_right_comm, Nat.pow_add, Nat.pow_add 2 _ a]
  exact ⟨Nat.mul_le_mul_right _ (Nat.log2_self_le (Nat.ne_of_gt hk)), Nat.mul_lt_mul_of_pos_right Nat.lt_log2_self hpos⟩

/-- The binade of a multiple of a power of two. -/
theorem floorLog2_scaled {k : Nat} (hk : 0 < k) (e : Int) : floorLog2 (k * (pow2 e).1) (1 * (pow2 e).2) = Nat.log2 k + e := by
  rcases Int.lt_or_le e 0 with h | h
  · rw [pow2_neg h, Nat.mul_one, Nat.one_mul, floorLog2_two_pow hk]
    omega
  · rw [pow2_nonneg h, Nat.one_mul, ← Nat.pow_zero 2, floorLog2_two_pow (Nat.mul_pos hk (Nat.two_pow_pos _)), log2_mul_two_pow hk]
    omega

/-! ### The value of a finite code, and its rounding (R88, R99) -/

/-- The integer by which a code's value is a multiple of its unit. -/
def Fmt.significand (f : Fmt) (e t : Nat) : Nat := if e = 0 then t else 2 ^ f.tbits + t

/-- The exponent of that unit. -/
def Fmt.unit (f : Fmt) (e : Nat) : Int := max (e : Int) 1 - f.bias - f.tbits

theorem Fmt.finite_eq (f : Fmt) (neg : Bool) (e t : Nat) : f.finite neg e t = (XReal.fin neg (f.significand e t) 1).scale (f.unit e) := by
  unfold Fmt.finite Fmt.significand Fmt.unit
  split
  case isTrue h => subst h; rfl
  case isFalse h => rw [Int.max_eq_left (by omega)]

/-- Positive values compare by their cross products. -/
theorem XReal.lt_fin_false {n d k e : Nat} (h : k * d ≤ n * e) : (XReal.fin false n d).lt (.fin false k e) = false := by
  show decide ((n : Int) * e < k * d) = false
  exact decide_eq_false (by exact_mod_cast Nat.not_lt.2 h)

/-- A multiple of the grid step is delivered as it stands. -/
theorem roundGrid_multiple (m : Rnd) (neg : Bool) (k : Nat) (q : Int) : roundGrid m neg (k * (pow2 q).1) (1 * (pow2 q).2) q = k := by
  obtain ⟨hfst, hsnd⟩ := pow2_pos q
  unfold roundGrid
  dsimp only
  rw [Nat.one_mul, Nat.mul_assoc, Nat.mul_comm (pow2 q).1]
  exact roundMag_exact (Nat.mul_pos hsnd hfst) m neg k

section Code
variable (f : Fmt) {e t : Nat} (ht : t < 2 ^ f.tbits)
include ht

/-- The significand of a normal code has the top bit of the format. -/
theorem Fmt.log2_significand_normal (he : e ≠ 0) : Nat.log2 (f.significand e t) = f.tbits := by
  have htop := Nat.two_pow_pos f.tbits
  rw [Fmt.significand, if_neg he, Nat.log2_eq_iff (by omega), Nat.pow_succ]
  omega

/-- The significand of a subnormal code lies below it. -/
theorem Fmt.log2_significand_subnormal (hk : 0 < f.significand 0 t) : Nat.log2 (f.significand 0 t) < f.tbits :=
  (Nat.log2_lt (Nat.ne_of_gt hk)).2 ht

/-- The grid step of R99 for the value of a code is the code's own unit. -/
theorem Fmt.gridStep_code (hk : 0 < f.significand e t) :
    max (floorLog2 (f.significand e t * (pow2 (f.unit e)).1) (1 * (pow2 (f.unit e)).2)) (1 - (f.bias : Int)) - f.tbits = f.unit e := by
  rw [floorLog2_scaled hk]
  unfold Fmt.unit
  by_cases he : e = 0
  · subst he
    have := f.log2_significand_subnormal ht hk
    omega
  · rw [f.log2_significand_normal ht he]
    omega

/-- The code of a significand at its unit. -/
theorem Fmt.pack_code (hk : 0 < f.significand e t) : f.pack (f.significand e t) (f.unit e) = e * 2 ^ f.tbits + t := by
  rw [Fmt.pack, if_neg (Nat.ne_of_gt hk)]
  dsimp only
  by_cases he : e = 0
  · subst he
    rw [if_pos (f.log2_significand_subnormal ht hk), Nat.zero_mul, Nat.zero_add]
    rfl
  · have hexp : (f.unit e + f.tbits + f.bias).toNat = e := by
      unfold Fmt.unit
      omega
    rw [f.log2_significand_normal ht he, if_neg (Nat.lt_irrefl _), hexp, Nat.sub_self, Nat.pow_zero, Nat.div_one, Fmt.significand, if_neg he,
      Nat.add_sub_cancel_left]

/-- The largest code of a normal exponent stands for no less than any code up to that exponent. -/
theorem Fmt.finite_not_lt {x : Nat} (hx : 0 < x) (he : e ≤ x) : (f.finite false x (2 ^ f.tbits - 1)).lt (f.finite false e t) = false := by
  have hsig : f.significand e t ≤ f.significand x (2 ^ f.tbits - 1) := by
    unfold Fmt.significand
    rw [if_neg (Nat.ne_of_gt hx)]
    split <;> omega
  have hunit : f.unit e ≤ f.unit x := by
    unfold Fmt.unit
    omega
  have hcross : f.significand e t * (pow2 (f.unit e)).1 * (1 * (pow2 (f.unit x)).2) ≤
      f.significand x (2 ^ f.tbits - 1) * (pow2 (f.unit x)).1 * (1 * (pow2 (f.unit e)).2) := by
    rw [Nat.one_mul, Nat.one_mul, Nat.mul_assoc, Nat.mul_assoc]
    exact Nat.mul_le_mul hsig (pow2_mono hunit)
  rw [Fmt.finite_eq, Fmt.finite_eq]
  exact XReal.lt_fin_false hcross

end Code

/-- The fields of the largest finite code (R87). -/
theorem Fmt.maxCode_fields (eb tb : Nat) (heb : 2 ≤ 2 ^ eb) :
    (Fmt.ieee eb tb).maxCode / 2 ^ tb = 2 ^ eb - 2 ∧ (Fmt.ieee eb tb).maxCode % 2 ^ tb = 2 ^ tb - 1 := by
  have htb : 0 < 2 ^ tb := Nat.two_pow_pos tb
  have hmax : (Fmt.ieee eb tb).maxCode = (2 ^ tb - 1) + (2 ^ eb - 2) * 2 ^ tb := by
    obtain ⟨x, hx⟩ := Nat.exists_eq_add_of_le heb
    rw [Fmt.maxCode, hx, show 2 + x - 1 = x + 1 by omega, show 2 + x - 2 = x by omega, Nat.add_mul]
    omega
  rw [hmax, Nat.add_mul_div_right _ _ htb, Nat.add_mul_mod_self_right]
  exact ⟨by rw [Nat.div_eq_of_lt (by omega), Nat.zero_add], Nat.mod_eq_of_lt (by omega)⟩

/-- A zero rounds to the zero of its sign. -/
theorem roundFin_zero (eb tb : Nat) (m : Rnd) (S neg : Bool) (d : Nat) :
    roundFin (.ieee eb tb) m S neg 0 d = (if neg then (Fmt.ieee eb tb).signWeight else 0, 0) := by
  unfold roundFin
  rw [if_pos rfl]

/-- The significand of a code is zero for the code of a zero alone. -/
theorem Fmt.significand_eq_zero {f : Fmt} {e t : Nat} (h : f.significand e t = 0) : e = 0 ∧ t = 0 := by
  unfold Fmt.significand at h
  split at h
  case isTrue he => exact ⟨he, h⟩
  case isFalse =>
    have := Nat.two_pow_pos f.tbits
    omega

/-- The value of a finite code rounds to that code, without a flag (R99). -/
theorem roundFin_code (eb tb : Nat) (heb : 2 ≤ eb) (m : Rnd) (S neg : Bool) {e t : Nat} (he : e ≤ 2 ^ eb - 2) (ht : t < 2 ^ tb) :
    let f := Fmt.ieee eb tb
    roundFin f m S neg (f.significand e t * (pow2 (f.unit e)).1) (1 * (pow2 (f.unit e)).2) =
      (e * 2 ^ tb + t + (if neg then f.signWeight else 0), 0) := by
  intro f
  have heb2 : 2 ^ 2 ≤ 2 ^ eb := Nat.pow_le_pow_right Nat.two_pos heb
  obtain ⟨hmaxe, hmaxt⟩ := Fmt.maxCode_fields eb tb (by omega)
  rcases Nat.eq_zero_or_pos (f.significand e t) with hk | hk
  · obtain ⟨rfl, rfl⟩ := Fmt.significand_eq_zero hk
    rw [hk, Nat.zero_mul, Nat.zero_mul, Nat.zero_add]
    exact roundFin_zero eb tb m S neg _
  · obtain ⟨hfst, hsnd⟩ := pow2_pos (f.unit e)
    have hn : f.significand e t * (pow2 (f.unit e)).1 ≠ 0 := Nat.ne_of_gt (Nat.mul_pos hk hfst)
    have hmax : (f.finite false (f.maxCode / 2 ^ f.tbits) (f.maxCode % 2 ^ f.tbits)).lt
        ((XReal.fin false (f.significand e t) 1).scale (f.unit e)) = false := by
      rw [← Fmt.finite_eq]
      show (f.finite false (f.maxCode / 2 ^ tb) (f.maxCode % 2 ^ tb)).lt (f.finite false e t) = false
      rw [hmaxe, hmaxt]
      exact f.finite_not_lt ht (by omega) he
    unfold roundFin
    rw [if_neg hn]
    dsimp only
    rw [f.gridStep_code ht hk, roundGrid_multiple, hmax, if_neg Bool.false_ne_true, if_neg (Nat.ne_of_gt hk), f.pack_code ht hk, Nat.one_mul,
      if_pos (beq_self_eq_true _)]
    rfl

/-- A code that has a finite value is not of the top exponent, and its value is that of its fields (R88). -/
theorem decodeVal_finite {eb tb c : Nat} (h : ∃ s n d, decodeVal (.ieee eb tb) c = .fin s n d) :
    c / 2 ^ tb % 2 ^ eb ≠ 2 ^ eb - 1 ∧
    decodeVal (.ieee eb tb) c = (Fmt.ieee eb tb).finite (c / 2 ^ (eb + tb) % 2 == 1) (c / 2 ^ tb % 2 ^ eb) (c % 2 ^ tb) := by
  unfold decodeVal at *
  by_cases htop : c / 2 ^ tb % 2 ^ eb = 2 ^ eb - 1
  · obtain ⟨s, n, d, h⟩ := h
    dsimp only at h
    rw [if_pos htop] at h
    split at h <;> cases h
  · exact ⟨htop, if_neg htop⟩

/-- A finite value rounds as its magnitude does, where the format is signed. -/
theorem round_fin (eb tb : Nat) (m : Rnd) (S neg : Bool) (n d : Nat) :
    round (.ieee eb tb) m S (.fin neg n d) = roundFin (.ieee eb tb) m S neg n d := by
  have hsigned : ((Fmt.ieee eb tb).signWeight == 0) = false := beq_false_of_ne (Nat.ne_of_gt (Nat.two_pow_pos (eb + tb)))
  simp only [round, hsigned, Bool.false_and, Bool.false_eq_true, if_false]

/-- A code is put together from its fields. -/
theorem code_of_fields {eb tb c : Nat} (hc : c < 2 * 2 ^ (eb + tb)) :
    c / 2 ^ tb % 2 ^ eb * 2 ^ tb + c % 2 ^ tb + (if (c / 2 ^ (eb + tb) % 2 == 1) = true then 2 ^ (eb + tb) else 0) = c := by
  have hlow := Nat.div_add_mod' c (2 ^ tb)
  have hhigh := Nat.div_add_mod' (c / 2 ^ tb) (2 ^ eb)
  have htop : c / 2 ^ tb / 2 ^ eb = c / 2 ^ (eb + tb) := by rw [Nat.div_div_eq_div_mul, ← Nat.pow_add, Nat.add_comm]
  have hbit : c / 2 ^ (eb + tb) < 2 := (Nat.div_lt_iff_lt_mul (Nat.two_pow_pos _)).2 hc
  have hsum : c / 2 ^ (eb + tb) * 2 ^ (eb + tb) + c / 2 ^ tb % 2 ^ eb * 2 ^ tb + c % 2 ^ tb = c := by
    rw [← htop, Nat.pow_add, ← Nat.mul_assoc, ← Nat.add_mul, hhigh, hlow]
  generalize c / 2 ^ (eb + tb) = b at hbit hsum ⊢
  obtain rfl | rfl : b = 0 ∨ b = 1 := by omega
  · rw [if_neg (by decide)]
    omega
  · rw [if_pos (by decide)]
    omega

/-- Every mode delivers a value that the format holds as it stands, without a flag (R99). -/
theorem round_decodeVal {eb tb : Nat} (heb : 2 ≤ eb) (m : Rnd) (S : Bool) {c : Nat} (hc : c < 2 * (Fmt.ieee eb tb).signWeight)
    (h : ∃ s n d, decodeVal (.ieee eb tb) c = .fin s n d) : round (.ieee eb tb) m S (decodeVal (.ieee eb tb) c) = (c, 0) := by
  obtain ⟨htop, hval⟩ := decodeVal_finite h
  have he : c / 2 ^ tb % 2 ^ eb ≤ 2 ^ eb - 2 := by
    have := Nat.mod_lt (c / 2 ^ tb) (Nat.two_pow_pos eb)
    omega
  rw [hval, Fmt.finite_eq, XReal.scale, round_fin, roundFin_code eb tb heb m S _ he (Nat.mod_lt c (Nat.two_pow_pos tb))]
  exact congrArg (·, 0) (code_of_fields hc)

/-! ### The square root (R125) -/

/-- The bits found so far, with the bits still to come, enclose the root. -/
theorem isqrtBits_bounds (fuel n acc : Nat) (hlow : acc * acc ≤ n) (hhigh : n < (acc + 2 ^ fuel) * (acc + 2 ^ fuel)) :
    isqrtBits fuel n acc * isqrtBits fuel n acc ≤ n ∧ n < (isqrtBits fuel n acc + 1) * (isqrtBits fuel n acc + 1) := by
  induction fuel generalizing acc with
  | zero => exact ⟨hlow, hhigh⟩
  | succ fuel ih =>
    unfold isqrtBits
    dsimp only
    split
    case isTrue h => exact ih _ h (by rwa [Nat.add_assoc, ← Nat.two_mul, ← Nat.pow_succ'])
    case isFalse h => exact ih _ hlow (Nat.not_le.1 h)

/-- `isqrt` is the floor of the square root. -/
theorem isqrt_bounds (n : Nat) : isqrt n * isqrt n ≤ n ∧ n < (isqrt n + 1) * (isqrt n + 1) := by
  have hfuel : n < 2 ^ (Nat.log2 n / 2 + 1) * 2 ^ (Nat.log2 n / 2 + 1) := by
    rw [← Nat.pow_add]
    exact Nat.lt_of_lt_of_le Nat.lt_log2_self (Nat.pow_le_pow_right Nat.two_pos (by omega))
  exact isqrtBits_bounds _ n 0 (Nat.zero_le n) (by rwa [Nat.zero_add])

theorem two_mul_sq (r : Nat) : (2 * r) ^ 2 = 4 * (r * r) := by
  rw [Nat.mul_pow, Nat.pow_two r]

/-- The rounding bit after a floor of the root keeps it between its neighbours. -/
theorem stickyRoot_bounds {t r p : Nat} (hlow : r * r ≤ t) (hhigh : t < (r + 1) * (r + 1)) (hp : p = 2 * r + if r * r = t then 0 else 1) :
    (p - 1) ^ 2 ≤ 4 * t ∧ 4 * t ≤ (p + 1) ^ 2 := by
  have hr := two_mul_sq r
  have hnext := two_mul_sq (r + 1)
  split at hp
  case isTrue h =>
    have hbelow : (p - 1) ^ 2 ≤ (2 * r) ^ 2 := Nat.pow_le_pow_left (by omega) 2
    have habove : (2 * r) ^ 2 ≤ (p + 1) ^ 2 := Nat.pow_le_pow_left (by omega) 2
    omega
  case isFalse h =>
    rw [show p - 1 = 2 * r by omega, show p + 1 = 2 * (r + 1) by omega]
    omega

/-- `sqrtVal` is the square root to 140 bits. -/
theorem isRoot_sqrtVal {n d : Nat} (hn : 0 < n) (hd : 0 < d) : isRoot n d (sqrtVal n d).1 (sqrtVal n d).2 := by
  generalize hh : 140 + Nat.log2 d = h
  generalize ht : n * d * 2 ^ (2 * h) = t
  have hroot : sqrtVal n d = (2 * isqrt t + (if isqrt t * isqrt t = t then 0 else 1), 2 * d * 2 ^ h) := by
    unfold sqrtVal
    simp only [hh, ht, beq_iff_eq, Nat.mul_div_cancel_left h Nat.two_pos]
  rw [hroot]
  obtain ⟨hfloor, hceil⟩ := isqrt_bounds t
  have hpow : 2 ^ (2 * h) = 2 ^ h * 2 ^ h := by rw [Nat.two_mul, Nat.pow_add]
  have hsquare : n * (2 * d * 2 ^ h) ^ 2 = 4 * t * d := by
    rw [← ht, hpow, Nat.mul_assoc 2, two_mul_sq]
    ac_rfl
  have hbits : 2 ^ 140 ≤ isqrt t := by
    refine Nat.le_of_lt_succ (Nat.mul_self_lt_mul_self_iff.1 (Nat.lt_of_le_of_lt ?_ hceil))
    rw [← ht, hpow]
    calc 2 ^ 140 * 2 ^ 140 ≤ 2 ^ h * 2 ^ h :=
          Nat.mul_le_mul (Nat.pow_le_pow_right Nat.two_pos (by omega)) (Nat.pow_le_pow_right Nat.two_pos (by omega))
      _ ≤ n * d * (2 ^ h * 2 ^ h) := Nat.le_mul_of_pos_left _ (Nat.mul_pos hn hd)
  obtain ⟨hlow, hhigh⟩ := stickyRoot_bounds hfloor hceil rfl
  refine ⟨Nat.mul_pos (Nat.mul_pos Nat.two_pos hd) (Nat.two_pow_pos h), by omega, ?_, ?_⟩
  · rw [hsquare]
    exact Nat.mul_le_mul_right d hlow
  · rw [hsquare]
    exact Nat.mul_le_mul_right d hhigh

/-! ### Exact arithmetic on finite values (R121, R125, R135) -/

/-- The numerator with its sign. -/
def signed (s : Bool) (n : Nat) : Int := if s then -(n : Int) else n

theorem signed_mul (s t : Bool) (n k : Nat) : signed (s != t) (n * k) = signed s n * signed t k := by
  cases s <;> cases t
  case false.false => exact Int.natCast_mul n k
  case false.true => exact (congrArg Neg.neg (Int.natCast_mul n k)).trans (Int.mul_neg _ _).symm
  case true.false => exact (congrArg Neg.neg (Int.natCast_mul n k)).trans (Int.neg_mul _ _).symm
  case true.true => exact (Int.natCast_mul n k).trans (Int.neg_mul_neg _ _).symm

/-- A finite value as a fraction. -/
theorem XReal.rat_fin (s : Bool) (n d : Nat) : (XReal.fin s n d).rat = mkRat (signed s n) d := by
  rw [Rat.mkRat_eq_div]
  cases s
  case false => exact congrArg (· / (d : Rat)) (Rat.one_mul _)
  case true => exact congrArg (· / (d : Rat)) ((Rat.neg_mul _ _).trans (congrArg Neg.neg (Rat.one_mul _)))

theorem XReal.finite_fin (s : Bool) (n : Nat) {d : Nat} (h : 0 < d) : (XReal.fin s n d).finite := ⟨s, n, d, rfl, h⟩

/-- A sum of finite terms whose numerator is `z`: a zero takes the sign given, another value its own. -/
def exactSum (zeroNeg : Bool) (z : Int) (d : Nat) : XReal × Nat :=
  if z = 0 then (.fin zeroNeg 0 1, 0) else (.fin (z < 0) z.natAbs d, 0)

theorem exactSum_spec (zeroNeg : Bool) (z : Int) {d : Nat} (hd : 0 < d) :
    (exactSum zeroNeg z d).2 = 0 ∧ (exactSum zeroNeg z d).1.finite ∧ (exactSum zeroNeg z d).1.rat = mkRat z d := by
  have hzero : signed zeroNeg 0 = 0 := by cases zeroNeg <;> rfl
  have hsigned : signed (z < 0) z.natAbs = z := by
    simp only [signed, decide_eq_true_eq]
    split <;> omega
  unfold exactSum
  split
  case isTrue h => exact ⟨rfl, XReal.finite_fin _ _ Nat.one_pos, by rw [XReal.rat_fin, hzero, h, Rat.zero_mkRat, Rat.zero_mkRat]⟩
  case isFalse => exact ⟨rfl, XReal.finite_fin _ _ hd, by rw [XReal.rat_fin, hsigned]⟩

theorem xadd_fin (m : Rnd) (s t : Bool) (n d k e : Nat) :
    xadd m (.fin s n d) (.fin t k e) =
      exactSum (if s && t then true else if s != t then m == .rdn else false) (signed s (n * e) + signed t (k * d)) (d * e) := rfl

theorem signed_mul_nat (s : Bool) (n k : Nat) : signed s (n * k) = signed s n * k := by
  have := signed_mul s false n k
  rwa [Bool.bne_false] at this

/-- The sum of finite values is exact. -/
theorem xadd_finite (m : Rnd) {x y : XReal} (hx : x.finite) (hy : y.finite) :
    (xadd m x y).2 = 0 ∧ (xadd m x y).1.finite ∧ (xadd m x y).1.rat = x.rat + y.rat := by
  obtain ⟨s, n, d, rfl, hd⟩ := hx
  obtain ⟨t, k, e, rfl, he⟩ := hy
  rw [XReal.rat_fin, XReal.rat_fin, Rat.mkRat_add_mkRat _ _ (Nat.ne_of_gt hd) (Nat.ne_of_gt he), ← signed_mul_nat, ← signed_mul_nat, xadd_fin]
  exact exactSum_spec _ _ (Nat.mul_pos hd he)

/-- The product of finite values is exact, and has the sign of the product. -/
theorem xmul_finite {x y : XReal} (hx : x.finite) (hy : y.finite) :
    (xmul x y).2 = 0 ∧ (xmul x y).1.finite ∧ (xmul x y).1.rat = x.rat * y.rat ∧ (xmul x y).1.signBit = (x.signBit != y.signBit) := by
  obtain ⟨s, n, d, rfl, hd⟩ := hx
  obtain ⟨t, k, e, rfl, he⟩ := hy
  refine ⟨rfl, XReal.finite_fin _ _ (Nat.mul_pos hd he), ?_, rfl⟩
  rw [XReal.rat_fin, XReal.rat_fin, Rat.mkRat_mul_mkRat, ← signed_mul]
  exact XReal.rat_fin _ _ _

/-- One term added to a running numerator and denominator. -/
def addTerm (a : Int × Nat) (x : XReal) : Int × Nat :=
  match x with
  | .fin s n d => (a.1 * d + signed s (n * a.2), a.2 * d)
  | _ => a

/-- The running fraction is the sum of the terms so far. -/
theorem foldl_addTerm (ts : List XReal) (h : ∀ x ∈ ts, x.finite) (a : Int × Nat) (ha : 0 < a.2) :
    0 < (ts.foldl addTerm a).2 ∧ mkRat (ts.foldl addTerm a).1 (ts.foldl addTerm a).2 = mkRat a.1 a.2 + (ts.map XReal.rat).sum := by
  induction ts generalizing a with
  | nil => exact ⟨ha, (Rat.add_zero _).symm⟩
  | cons x ts ih =>
    obtain ⟨s, n, d, rfl, hd⟩ := h x List.mem_cons_self
    obtain ⟨hpos, hsum⟩ := ih (fun y hy => h y (List.mem_cons_of_mem _ hy)) (addTerm a (.fin s n d)) (Nat.mul_pos ha hd)
    refine ⟨hpos, hsum.trans ?_⟩
    rw [List.map_cons, List.sum_cons, ← Rat.add_assoc, XReal.rat_fin, Rat.mkRat_add_mkRat _ _ (Nat.ne_of_gt ha) (Nat.ne_of_gt hd),
      ← signed_mul_nat]
    rfl

/-- A sum of finite terms has no special case but the sign of a zero. -/
theorem xsum_of_finite (m : Rnd) (ts : List XReal) (h : ∀ x ∈ ts, x.finite) :
    ∃ zeroNeg, xsum m ts = exactSum zeroNeg (ts.foldl addTerm (0, 1)).1 (ts.foldl addTerm (0, 1)).2 := by
  have hnone (p : XReal → Bool) (hp : ∀ s n d, p (.fin s n d) = false) : ts.any p = false := by
    rw [List.any_eq_false]
    intro x hx
    obtain ⟨s, n, d, rfl, -⟩ := h x hx
    rw [hp]
    exact Bool.false_ne_true
  have hpinf : ts.any (fun t => t == .inf false) = false := hnone _ (fun _ _ _ => rfl)
  have hninf : ts.any (fun t => t == .inf true) = false := hnone _ (fun _ _ _ => rfl)
  have hnan : ts.any XReal.isNan = false := hnone _ (fun _ _ _ => rfl)
  unfold xsum
  rw [hpinf, hninf, hnan]
  exact ⟨_, rfl⟩

/-- The sum of finite terms is exact. -/
theorem xsum_finite (m : Rnd) (ts : List XReal) (h : ∀ x ∈ ts, x.finite) :
    (xsum m ts).2 = 0 ∧ (xsum m ts).1.finite ∧ (xsum m ts).1.rat = (ts.map XReal.rat).sum := by
  obtain ⟨b, hb⟩ := xsum_of_finite m ts h
  obtain ⟨hpos, hsum⟩ := foldl_addTerm ts h (0, 1) Nat.one_pos
  obtain ⟨hflags, hfin, hrat⟩ := exactSum_spec b (ts.foldl addTerm (0, 1)).1 hpos
  rw [hb]
  exact ⟨hflags, hfin, by rw [hrat, hsum, Rat.zero_mkRat, Rat.zero_add]⟩

/-- Terms that raise no flag leave the flags as they are. -/
theorem foldl_flags_zero {α : Type} (ps : List (α × Nat)) (h : ∀ p ∈ ps, p.2 = 0) (a : Nat) : ps.foldl (fun a p => a ||| p.2) a = a := by
  induction ps generalizing a with
  | nil => rfl
  | cons p ps ih =>
    rw [List.foldl_cons, h p List.mem_cons_self, Nat.or_zero]
    exact ih (fun q hq => h q (List.mem_cons_of_mem _ hq)) a

theorem sum_append_rat (xs ys : List Rat) : (xs ++ ys).sum = xs.sum + ys.sum := by
  induction xs with
  | nil => exact (Rat.zero_add _).symm
  | cons x xs ih => rw [List.cons_append, List.sum_cons, List.sum_cons, ih, Rat.add_assoc]

/-- The sum of products and addends of finite values is exact. -/
theorem xdot_finite (m : Rnd) (ps : List (XReal × XReal)) (cs : List XReal) (hps : ∀ p ∈ ps, p.1.finite ∧ p.2.finite)
    (hcs : ∀ c ∈ cs, c.finite) :
    (xdot m ps cs).2 = 0 ∧ (xdot m ps cs).1.finite ∧
      (xdot m ps cs).1.rat = (ps.map (fun p => p.1.rat * p.2.rat)).sum + (cs.map XReal.rat).sum := by
  generalize hprods : ps.map (fun p => xmul p.1 p.2) = prods
  have hdot : xdot m ps cs = ((xsum m (prods.map (·.1) ++ cs)).1, prods.foldl (fun a p => a ||| p.2) (xsum m (prods.map (·.1) ++ cs)).2) := by
    rw [← hprods]
    rfl
  have hprod : ∀ p ∈ prods, p.2 = 0 ∧ p.1.finite := by
    rw [← hprods]
    intro p hp
    obtain ⟨q, hq, rfl⟩ := List.mem_map.1 hp
    obtain ⟨hx, hy⟩ := hps q hq
    obtain ⟨hflags, hfin, -⟩ := xmul_finite hx hy
    exact ⟨hflags, hfin⟩
  have hrats : (prods.map (·.1)).map XReal.rat = ps.map (fun p => p.1.rat * p.2.rat) := by
    rw [← hprods, List.map_map, List.map_map]
    refine List.map_congr_left (fun q hq => ?_)
    obtain ⟨hx, hy⟩ := hps q hq
    obtain ⟨-, -, hrat, -⟩ := xmul_finite hx hy
    exact hrat
  have hterms : ∀ x ∈ prods.map (·.1) ++ cs, x.finite := by
    intro x hx
    rcases List.mem_append.1 hx with hx | hx
    · obtain ⟨p, hp, rfl⟩ := List.mem_map.1 hx
      obtain ⟨-, hfin⟩ := hprod p hp
      exact hfin
    · exact hcs x hx
  obtain ⟨hflags, hfin, hrat⟩ := xsum_finite m _ hterms
  rw [hdot]
  refine ⟨(foldl_flags_zero prods (fun p hp => (hprod p hp).1) _).trans hflags, hfin, ?_⟩
  rw [hrat, List.map_append, sum_append_rat, hrats]

/-! ### Special cases (R102, R121, R125) -/

/-- Opposite finite values cancel to +0, under RDN to -0. -/
theorem xadd_cancel (m : Rnd) (s : Bool) (n d : Nat) : xadd m (.fin s n d) (.fin (!s) n d) = (.fin (m == .rdn) 0 1, 0) := by
  rw [xadd_fin]
  cases s
  case false => exact if_pos (Int.add_right_neg _)
  case true => exact if_pos (Int.add_left_neg _)

/-- Like zeros keep their sign. -/
theorem xadd_zeros (m : Rnd) (s : Bool) (d e : Nat) : xadd m (.fin s 0 d) (.fin s 0 e) = (.fin s 0 1, 0) := by
  rw [xadd_fin, Nat.zero_mul, Nat.zero_mul]
  cases s <;> rfl

theorem xadd_opposite_inf (m : Rnd) (s : Bool) : xadd m (.inf s) (.inf (!s)) = (.nan false, fINVALID) := by
  cases s <;> rfl

theorem xadd_like_inf (m : Rnd) (s : Bool) : xadd m (.inf s) (.inf s) = (.inf s, 0) := by
  cases s <;> rfl

theorem xmul_fin_inf (s t : Bool) {n : Nat} (d : Nat) (hn : 0 < n) : xmul (.fin s n d) (.inf t) = (.inf (s != t), 0) :=
  if_neg (Nat.ne_of_gt hn)

theorem xdiv_fin_zero (s t : Bool) {n : Nat} (d e : Nat) (hn : 0 < n) : xdiv (.fin s n d) (.fin t 0 e) = (.inf (s != t), fDIV_ZERO) :=
  if_neg (Nat.ne_of_gt hn)

/-- A quotient of finite values by one that is not zero is exact. -/
theorem xdiv_fin (s t : Bool) (n d e : Nat) {k : Nat} (hk : 0 < k) : xdiv (.fin s n d) (.fin t k e) = (.fin (s != t) (n * e) (d * k), 0) :=
  if_neg (Nat.ne_of_gt hk)

theorem gSqrt_fin (m : Rnd) (s : Bool) {n : Nat} (d : Nat) (y z : XReal) (hn : 0 < n) :
    gSqrt m (.fin s n d) y z = if s then (.nan false, fINVALID) else (.fin false (sqrtVal n d).1 (sqrtVal n d).2, 0) :=
  if_neg (Nat.ne_of_gt hn)

/-- Settles O12, from the bounds of `roundMag`, the rounding of a code's value to the code, the special cases and the exact values. -/
theorem roundingAndSpecialCases : Obligations.RoundingAndSpecialCases := by
  refine ⟨fun neg n d hd => ?_, fun f hf m sat c hc hfin => ?_, fun m s t n d k e hd he => ?_⟩
  · obtain ⟨hrupPos, hrupNeg, hrdnNeg, hrdnPos⟩ := roundMag_directed n hd
    obtain ⟨hnearest, heven⟩ := roundMag_rne_nearest (n := n) hd neg
    exact ⟨floor_bounds hd rfl, hrupPos, hrupNeg, hrdnNeg, hrdnPos, hnearest, heven⟩
  · simp only [List.mem_cons, List.not_mem_nil, or_false] at hf
    rcases hf with rfl | rfl | rfl | rfl | rfl <;> exact round_decodeVal (by decide) m sat hc hfin
  · refine ⟨fun _ => ⟨1, xadd_cancel m s n d⟩, ⟨1, xadd_zeros m s d e⟩, xadd_opposite_inf m s, xadd_like_inf m s, rfl, xmul_fin_inf s t d,
      rfl, xdiv_fin_zero s t d e, rfl, gSqrt_fin m true d _ _, ⟨1, rfl⟩, fun hk _ => ⟨_, _, xdiv_fin s t n d e hk, rfl⟩,
      fun hn => ⟨_, _, gSqrt_fin m false d _ _ hn, isRoot_sqrtVal hn hd⟩,
      fun x y hx hy => ⟨xadd_finite m hx hy, xmul_finite hx hy⟩, xdot_finite m⟩

end Sys2Proof.Machine
end

section
/-! Integer instructions: what the lanes of a result are, and the element functions as operations on bit vectors (R85, R106, R111, R113,
R114, R118). -/
set_option autoImplicit false

namespace Sys2Proof.Machine

/-! ### Results (R25, R26, R51, R107) -/

/-- A vector operation on readable operands, of which only the lanes that execute matter. -/
theorem vectorResult_of_vop_lanes {i : Instr} {o : NOp} {s : State} {wide : Bool} {f : Nat → Flagged} {P : Nat → Nat → Nat → Prop}
    (hexec : exec i s = .next (s.vop i o wide f)) (hread : s.readable i o.g) (hlane : ∀ l, l < 32 → P l (f l).1 (f l).2) :
    vectorResult i o s wide P := by
  obtain ⟨x, fl, hx, hnext⟩ := vectorResult_of_vop (P := fun l x fl => x = (f l).1 ∧ fl = (f l).2) hexec hread (fun l => ⟨rfl, rfl⟩)
  refine ⟨x, fl, fun l hl => ?_, hnext⟩
  obtain ⟨hval, hflags⟩ := hx l hl
  rw [hval, hflags]
  exact hlane l (BitVec.lt_of_getLsbD hl)

/-- A scalar operation on readable operands. -/
theorem scalarResult_of_sop {i : Instr} {o : NOp} {s : State} {wide : Bool} {x : Nat} (hexec : exec i s = .next (s.sop i o wide x))
    (hread : s.readable i o.g) : scalarResult i o s wide x := by
  rw [scalarResult, hexec, State.sop, State.checked_clear _ _ _ _ hread]
  rfl

/-! ### The elements of a lane (R85, R106) -/

/-- An integer lane is the packed elements with their flags joined. -/
theorem intLane_eq (t : Ty) (f : IntFn) (a b c : Nat) :
    let r (k : Nat) := f t.bits t.signed (readInt t.signed t.bits (elemNat t.bits k a)) (readInt t.signed t.bits (elemNat t.bits k b))
      (readInt t.signed t.bits (elemNat t.bits k c))
    intLane t f a b c = (packed t (fun k => keep t.bits (r k).1), joined t (fun k => (r k).2)) := by
  intro r
  rw [packed, joined, ← foldl_elements t.bits (fun k => (keep t.bits (r k).1, (r k).2)) _ (0, 0)]
  rfl

theorem joined_zero (t : Ty) : joined t (fun _ => 0) = 0 := by
  simp only [joined, Nat.or_zero]
  induction List.range t.elems with
  | nil => rfl
  | cons k ks ih => exact ih

/-- Element 0 of a source of one element is the whole source. -/
theorem State.element_zero (s : State) (t : Ty) (x : Src) (l : Nat) : s.element t x l 0 = readInt t.signed t.bits (s.src t x l) := by
  unfold State.element readInt elemNat
  norm_cast
  simp

/-- The result of an integer element function on element `k` of the sources in lane `l`. -/
def State.intElement (s : State) (o : NOp) (f : IntFn) (l k : Nat) : Int × Nat :=
  f o.ty.bits o.ty.signed (s.element o.ty o.s0 l k) (s.element o.ty o.s1 l k) (s.element o.ty o.s2 l k)

theorem State.intAt_eq (s : State) (o : NOp) (f : IntFn) (l : Nat) :
    s.intAt o f l = (packed o.ty (fun k => keep o.ty.bits (s.intElement o f l k).1), joined o.ty (fun k => (s.intElement o f l k).2)) :=
  intLane_eq _ _ _ _ _

/-- An integer vector instruction keeps the result of its element function, element by element. -/
theorem vectorResult_vint {i : Instr} {o : NOp} {s : State} {f : IntFn} (hexec : exec i s = .next (s.vint i o f)) (hread : s.readable i o.g) :
    vectorResult i o s o.ty.is64 (fun l x fl => fl = joined o.ty (fun k => (s.intElement o f l k).2) ∧
      x = packed o.ty (fun k => keep o.ty.bits (s.intElement o f l k).1)) :=
  vectorResult_of_vop hexec hread (fun l => by rw [State.intAt_eq]; exact ⟨rfl, rfl⟩)

theorem tyBits_pos (t : Ty) : 0 < t.bits := by cases t <;> decide

/-- An element function keeps what a row of the tables gives, and raises no flag. -/
def Computes (f : IntFn) (g : Nat → Int → Int → Int → Int) : Prop :=
  ∀ (w : Nat) (sg : Bool) (a b c : Int), 0 < w → keep w (f w sg a b c).1 = keep w (g w a b c) ∧ (f w sg a b c).2 = 0

theorem Computes.element {f : IntFn} {g : Nat → Int → Int → Int → Int} (h : Computes f g) (s : State) (o : NOp) (l : Nat) :
    s.intAt o f l = (packed o.ty (fun k => keep o.ty.bits (g o.ty.bits (s.element o.ty o.s0 l k) (s.element o.ty o.s1 l k)
      (s.element o.ty o.s2 l k))), 0) := by
  have hval (k : Nat) : keep o.ty.bits (s.intElement o f l k).1 = keep o.ty.bits (g o.ty.bits (s.element o.ty o.s0 l k)
      (s.element o.ty o.s1 l k) (s.element o.ty o.s2 l k)) ∧ (s.intElement o f l k).2 = 0 := h _ _ _ _ _ (tyBits_pos o.ty)
  rw [State.intAt_eq, funext (fun k => (hval k).1), funext (fun k => (hval k).2), joined_zero]

theorem Computes.vector {i : Instr} {o : NOp} {s : State} {f : IntFn} {g : Nat → Int → Int → Int → Int} (h : Computes f g)
    (hexec : exec i s = .next (s.vint i o f)) (hread : s.readable i o.g) :
    vectorResult i o s o.ty.is64 (fun l x fl => fl = 0 ∧
      x = packed o.ty (fun k => keep o.ty.bits (g o.ty.bits (s.element o.ty o.s0 l k) (s.element o.ty o.s1 l k) (s.element o.ty o.s2 l k)))) :=
  vectorResult_of_vop hexec hread (fun l => by rw [h.element]; exact ⟨rfl, rfl⟩)

theorem Computes.scalar {i : Instr} {o : NOp} {s : State} {f : IntFn} {g : Nat → Int → Int → Int → Int} (h : Computes f g)
    (hexec : exec i s = .next (s.sint i o f)) (hread : s.readable i o.g) :
    scalarResult i o s o.ty.is64
      (packed o.ty (fun k => keep o.ty.bits (g o.ty.bits (s.element o.ty o.s0 0 k) (s.element o.ty o.s1 0 k) (s.element o.ty o.s2 0 k)))) := by
  have hres := scalarResult_of_sop hexec hread
  rwa [h.element] at hres

/-! ### Bits of natural numbers -/

theorem popcount_eq (n x : Nat) : popcount n x = ((List.range n).filter (fun i => x.testBit i)).length := by
  induction n generalizing x with
  | zero => rfl
  | succ n ih =>
    rw [popcount, ih, List.range_succ_eq_map, List.filter_cons, List.filter_map, Nat.testBit_zero]
    have hodd : x % 2 = 0 ∨ x % 2 = 1 := by omega
    rcases hodd with h | h <;> simp [h, Nat.testBit_succ, Function.comp_def, Nat.add_comm]

theorem trailing_eq (n x : Nat) : trailing n x = ((List.range n).find? (fun i => x.testBit i)).getD n := by
  induction n generalizing x with
  | zero => rfl
  | succ n ih =>
    rw [trailing, ih, List.range_succ_eq_map, List.find?_cons, List.find?_map, Nat.testBit_zero]
    have hodd : x % 2 = 0 ∨ x % 2 = 1 := by omega
    rcases hodd with h | h
    · simp only [h, Nat.testBit_succ, Function.comp_def]
      cases (List.range n).find? (fun i => (x / 2).testBit i) <;> simp [Nat.add_comm]
    · simp [h]

theorem reverseBits_lt (n x : Nat) : reverseBits n x < 2 ^ n := by
  induction n generalizing x with
  | zero => exact Nat.one_pos
  | succ n ih =>
    have hrest := ih (x / 2)
    have hodd : x % 2 = 0 ∨ x % 2 = 1 := by omega
    rcases hodd with h | h <;> simp only [reverseBits, h, Nat.pow_succ] <;> omega

theorem testBit_reverseBits (n x j : Nat) : (reverseBits n x).testBit j = (decide (j < n) && x.testBit (n - 1 - j)) := by
  induction n generalizing x with
  | zero => simp [reverseBits]
  | succ n ih =>
    rw [reverseBits, Nat.mul_comm, Nat.testBit_two_pow_mul_add _ (reverseBits_lt n (x / 2)), ih]
    by_cases hlow : j < n
    · obtain ⟨k, hk⟩ : ∃ k, n - j = k + 1 := ⟨n - j - 1, by omega⟩
      have hk' : n - 1 - j = k := by omega
      simp [hlow, hk, hk', Nat.testBit_succ, show j < n + 1 by omega]
    · by_cases htop : j = n
      · subst htop
        simp [Nat.testBit_zero]
      · have hodd : x % 2 < 2 ^ (j - n) := Nat.lt_of_lt_of_le (Nat.mod_lt x Nat.two_pos) (Nat.le_self_pow (by omega) 2)
        simp [hlow, show ¬ j < n + 1 by omega, Nat.testBit_lt_two_pow hodd]

/-! ### Elements as bit vectors -/

theorem toNat_emod_two_pow (w : Nat) (z : Int) : (z % (2 ^ w : Int)).toNat = (BitVec.ofInt w z).toNat := by
  rw [BitVec.toNat_ofInt]
  push_cast
  rfl

theorem raw_eq (w : Nat) (a : Int) : raw w a = (BitVec.ofInt w a).toNat := toNat_emod_two_pow w a

theorem keep_eq (w : Nat) (a : Int) : keep w a = (BitVec.ofInt w a).toNat := toNat_emod_two_pow w a

theorem keep_natCast (w n : Nat) : keep w (n : Int) = n % 2 ^ w := by
  rw [keep_eq, BitVec.ofInt_natCast, BitVec.toNat_ofNat]

/-- The bits of an element read as a signed number. -/
theorem readInt_true_toNat {w : Nat} (hw : 0 < w) (x : BitVec w) : readInt true w x.toNat = x.toInt := by
  have hpow : 2 ^ w = 2 * 2 ^ (w - 1) := by rw [← Nat.pow_succ']; congr 1; omega
  have hx := x.isLt
  unfold readInt
  rw [BitVec.toInt_eq_toNat_cond, Nat.mod_eq_of_lt hx]
  norm_cast
  rw [Nat.mod_eq_of_lt hx]
  simp only [Bool.true_and, decide_eq_true_eq]
  split <;> split <;> omega

/-- A shift by the width or more leaves the sign alone. -/
theorem toInt_ediv_two_pow {w n : Nat} (x : BitVec w) (h : w ≤ n) : x.toInt / 2 ^ n = if x.toInt < 0 then -1 else 0 := by
  have hbig : (2 : Int) ^ w ≤ 2 ^ n := by exact_mod_cast Nat.pow_le_pow_right (by decide) h
  have hlow := x.le_two_mul_toInt
  have hhigh := x.two_mul_toInt_lt
  split
  case isTrue hneg => exact Int.ediv_eq_neg_one_of_neg_of_le (by omega) (by omega)
  case isFalse hpos => exact Int.ediv_eq_zero_of_lt (by omega) (by omega)

/-! ### The rows of R111 and R114 -/

theorem computes_of_eq {f : IntFn} {g : Nat → Int → Int → Int → Int} (h : ∀ w sg a b c, 0 < w → f w sg a b c = (g w a b c, 0)) : Computes f g :=
  fun w sg a b c hw => by rw [h w sg a b c hw]; exact ⟨rfl, rfl⟩

theorem computes_fAdd : Computes fAdd (fun _ a b _ => a + b) := computes_of_eq (fun _ _ _ _ _ _ => rfl)

theorem computes_fSub : Computes fSub (fun _ a b _ => a - b) := computes_of_eq (fun _ _ _ _ _ _ => rfl)

theorem computes_fMul : Computes fMul (fun _ a b _ => a * b) := computes_of_eq (fun _ _ _ _ _ _ => rfl)

theorem computes_fMad : Computes fMad (fun _ a b c => a * b + c) := computes_of_eq (fun _ _ _ _ _ _ => rfl)

theorem computes_fAbs : Computes fAbs (fun _ a _ _ => (a.natAbs : Int)) := computes_of_eq (fun _ _ _ _ _ _ => rfl)

theorem computes_fShl : Computes fShl (fun w a b _ => if raw w b < w then a * 2 ^ raw w b else 0) := computes_of_eq (fun _ _ _ _ _ _ => rfl)

theorem computes_fMov : Computes fMov (fun _ a _ _ => a) := computes_of_eq (fun _ _ _ _ _ _ => rfl)

theorem computes_fMulh : Computes fMulh (fun w a b _ => Int.fdiv (a * b) (2 ^ w)) :=
  computes_of_eq (fun w _ a b _ _ => by rw [fMulh, Int.fdiv_eq_ediv_of_nonneg _ (Int.pow_nonneg (by decide))])

theorem computes_fMin : Computes fMin (fun _ a b _ => if a ≤ b then a else b) := computes_of_eq (fun _ _ a b _ _ => by rw [fMin, Int.min_def])

theorem computes_fMax : Computes fMax (fun _ a b _ => if a ≤ b then b else a) := computes_of_eq (fun _ _ a b _ _ => by rw [fMax, Int.max_def])

theorem computes_fAnd : Computes fAnd (fun w a b _ => ((BitVec.ofInt w a &&& BitVec.ofInt w b).toNat : Int)) :=
  computes_of_eq (fun w _ a b _ _ => by rw [BitVec.toNat_and, ← raw_eq, ← raw_eq]; rfl)

theorem computes_fOr : Computes fOr (fun w a b _ => ((BitVec.ofInt w a ||| BitVec.ofInt w b).toNat : Int)) :=
  computes_of_eq (fun w _ a b _ _ => by rw [BitVec.toNat_or, ← raw_eq, ← raw_eq]; rfl)

theorem computes_fXor : Computes fXor (fun w a b _ => ((BitVec.ofInt w a ^^^ BitVec.ofInt w b).toNat : Int)) :=
  computes_of_eq (fun w _ a b _ _ => by rw [BitVec.toNat_xor, ← raw_eq, ← raw_eq]; rfl)

theorem computes_fAndn : Computes fAndn (fun w a b _ => ((BitVec.ofInt w a &&& ~~~(BitVec.ofInt w b)).toNat : Int)) :=
  computes_of_eq (fun w _ a b _ _ => by rw [BitVec.toNat_and, BitVec.toNat_not, ← raw_eq, ← raw_eq]; rfl)

theorem computes_fShr : Computes fShr (fun w a b _ => ((BitVec.ofInt w a >>> raw w b).toNat : Int)) :=
  computes_of_eq (fun w _ a b _ _ => by
    have hbits := (BitVec.ofInt w a).isLt
    rw [fShr, BitVec.toNat_ushiftRight, Nat.shiftRight_eq_div_pow, raw_eq w a]
    split
    case isTrue => rfl
    case isFalse h => rw [Nat.div_eq_of_lt (Nat.lt_of_lt_of_le hbits (Nat.pow_le_pow_right (by decide) (by omega)))]; rfl)

theorem computes_fSar : Computes fSar (fun w a b _ => ((BitVec.ofInt w a).sshiftRight (raw w b)).toInt) :=
  computes_of_eq (fun w _ a b _ hw => by
    rw [fSar, raw_eq w a, readInt_true_toNat hw, BitVec.toInt_sshiftRight, Int.shiftRight_eq_div_pow]
    push_cast
    split
    case isTrue => rfl
    case isFalse h => rw [toInt_ediv_two_pow _ (by omega)])

theorem computes_fRot : Computes fRot (fun w a b _ => (((BitVec.ofInt w a).rotateLeft (raw w b)).toNat : Int)) := by
  intro w sg a b c hw
  refine ⟨?_, rfl⟩
  have hcount : raw w b % w < w := Nat.mod_lt _ hw
  have hhigh : (BitVec.ofInt w a).toNat / 2 ^ (w - raw w b % w) < 2 ^ (raw w b % w) := by
    rw [Nat.div_lt_iff_lt_mul (Nat.two_pow_pos _), ← Nat.pow_add, show raw w b % w + (w - raw w b % w) = w by omega]
    exact (BitVec.ofInt w a).isLt
  show keep w ((raw w a * 2 ^ (raw w b % w) + raw w a / 2 ^ (w - raw w b % w) : Nat) : Int) = _
  rw [keep_natCast, keep_natCast, Nat.mod_eq_of_lt (BitVec.isLt _), BitVec.toNat_rotateLeft, raw_eq w a, ← Nat.shiftLeft_eq,
    Nat.shiftLeft_add_eq_or_of_lt hhigh, Nat.or_mod_two_pow, Nat.shiftRight_eq_div_pow,
    Nat.mod_eq_of_lt (Nat.lt_of_le_of_lt (Nat.div_le_self _ _) (BitVec.isLt _))]

theorem computes_fPopc : Computes fPopc (fun w a _ _ => (onesOf (BitVec.ofInt w a) : Int)) :=
  computes_of_eq (fun w _ a _ _ _ => by rw [fPopc, popcount_eq, raw_eq]; rfl)

theorem computes_fCtz : Computes fCtz (fun w a _ _ => (trailingOf (BitVec.ofInt w a) : Int)) :=
  computes_of_eq (fun w _ a _ _ _ => by rw [fCtz, trailing_eq, raw_eq]; rfl)

theorem testBit_reverseBits_toNat {w : Nat} (x : BitVec w) (j : Nat) : (reverseBits w x.toNat).testBit j = x.getMsbD j :=
  testBit_reverseBits _ _ _

theorem computes_fClz : Computes fClz (fun w a _ _ => (leadingOf (BitVec.ofInt w a) : Int)) :=
  computes_of_eq (fun w _ a _ _ _ => by
    rw [fClz, trailing_eq, raw_eq, funext (testBit_reverseBits_toNat (BitVec.ofInt w a))]
    rfl)

theorem computes_fBrev : Computes fBrev (fun w a _ _ => ((BitVec.ofInt w a).reverse.toNat : Int)) :=
  computes_of_eq (fun w _ a _ _ _ => by
    have hrev : reverseBits w (BitVec.ofInt w a).toNat = (BitVec.ofInt w a).reverse.toNat := Nat.eq_of_testBit_eq (fun j => by
      rw [testBit_reverseBits_toNat, BitVec.testBit_toNat, BitVec.getLsbD_reverse])
    rw [fBrev, raw_eq, hrev])

/-! ### Division (R113) -/

/-- A division keeps the truncated quotient, or all ones for a zero divisor, which it reports. -/
theorem fDiv_eq (w : Nat) (sg : Bool) (a b c : Int) : fDiv w sg a b c = (if b = 0 then -1 else a.tdiv b, if b = 0 then fINT_DIV_ZERO else 0) := by
  unfold fDiv
  split <;> rfl

/-- A remainder keeps what the truncated quotient leaves, or the dividend for a zero divisor, which it reports. -/
theorem fRem_eq (w : Nat) (sg : Bool) (a b c : Int) : fRem w sg a b c = (if b = 0 then a else a - b * a.tdiv b, if b = 0 then fINT_DIV_ZERO else 0) := by
  unfold fRem
  split
  · rfl
  · rw [Int.tmod_def]

/-- Settles O7: each row of `integerRows` is computed by the element function of its instruction, and a division by `fDiv_eq` or `fRem_eq`. -/
theorem integerVectorResults : Obligations.IntegerVectorResults := by
  refine ⟨fun p hp o s _ hread => ?_, fun o s rem => ?_⟩
  · simp only [integerRows, List.mem_cons, List.not_mem_nil, or_false] at hp
    rcases hp with rfl | rfl | rfl | rfl | rfl | rfl | rfl | rfl | rfl | rfl | rfl | rfl | rfl | rfl | rfl | rfl | rfl | rfl | rfl | rfl | rfl
    · exact computes_fAdd.vector rfl hread
    · exact computes_fSub.vector rfl hread
    · exact computes_fMul.vector rfl hread
    · exact computes_fMulh.vector rfl hread
    · exact computes_fMad.vector rfl hread
    · exact computes_fMin.vector rfl hread
    · exact computes_fMax.vector rfl hread
    · exact computes_fAbs.vector rfl hread
    · exact computes_fAnd.vector rfl hread
    · exact computes_fOr.vector rfl hread
    · exact computes_fXor.vector rfl hread
    · exact computes_fAndn.vector rfl hread
    · exact computes_fShl.vector rfl hread
    · exact computes_fShr.vector rfl hread
    · exact computes_fSar.vector rfl hread
    · exact computes_fRot.vector rfl hread
    · exact computes_fPopc.vector rfl hread
    · exact computes_fClz.vector rfl hread
    · exact computes_fCtz.vector rfl hread
    · exact computes_fBrev.vector rfl hread
    · exact computes_fMov.vector rfl hread
  · cases rem with
    | false =>
      intro i _ hread
      have hres := vectorResult_vint (show exec (.vdiv o) s = .next (s.vint (.vdiv o) o fDiv) from rfl) hread
      simp only [State.intElement, fDiv_eq] at hres
      exact hres
    | true =>
      intro i _ hread
      have hres := vectorResult_vint (show exec (.vrem o) s = .next (s.vint (.vrem o) o fRem) from rfl) hread
      simp only [State.intElement, fRem_eq] at hres
      exact hres

/-! ### Scalar instructions (R107, R109, R118) -/

/-- The comparisons of R117, decided. -/
theorem condHolds_iff (code w : Nat) (a b : Int) : condHolds code w a b = true ↔ comparison code w a b := by
  have hbits : raw w a &&& raw w b = 0 ↔ BitVec.ofInt w a &&& BitVec.ofInt w b = 0#w := by
    rw [raw_eq, raw_eq, ← BitVec.toNat_inj, BitVec.toNat_and]
    exact Iff.rfl
  rcases code with _ | _ | _ | _ | _ | _ | _ | code <;> simp [condHolds, comparison, hbits]

/-- An immediate operation, which has no guard, on readable operands. -/
theorem State.checked_issue {s : State} {i : Instr} (hread : s.readable i .all) (k : State → State) : s.checked i s.me.step.issue k = k s :=
  s.checked_clear i _ k hread

/-- The sum of a word and an immediate (R110). -/
theorem State.srcW_add (s : State) (x : Src) (l : Nat) (imm : Word) : (s.srcW x l + imm).toNat = (s.src .n32 x l + imm.toNat) % 2 ^ 32 := by
  simp [State.srcW]

/-- Settles O11: the rows share the element functions of the vector instructions, on lane 0 of their sources. -/
theorem scalarResults : Obligations.ScalarResults := by
  refine ⟨fun p hp o s _ hread => ?_, fun o s _ hread => ?_, fun o s _ hread => ?_, fun o s hread => ?_, fun o s hread => ?_⟩
  · simp only [scalarRows, List.mem_cons, List.not_mem_nil, or_false] at hp
    rcases hp with rfl | rfl | rfl | rfl | rfl | rfl | rfl | rfl | rfl | rfl | rfl | rfl | rfl | rfl | rfl | rfl | rfl
    · exact computes_fAdd.scalar rfl hread
    · exact computes_fSub.scalar rfl hread
    · exact computes_fMul.scalar rfl hread
    · exact computes_fMulh.scalar rfl hread
    · exact computes_fMin.scalar rfl hread
    · exact computes_fMax.scalar rfl hread
    · exact computes_fAnd.scalar rfl hread
    · exact computes_fOr.scalar rfl hread
    · exact computes_fXor.scalar rfl hread
    · exact computes_fAndn.scalar rfl hread
    · exact computes_fShl.scalar rfl hread
    · exact computes_fShr.scalar rfl hread
    · exact computes_fSar.scalar rfl hread
    · exact computes_fMov.scalar rfl hread
    · exact computes_fPopc.scalar rfl hread
    · exact computes_fClz.scalar rfl hread
    · exact computes_fCtz.scalar rfl hread
  · have hexec : exec (.scmp o) s = execScmp o s := rfl
    simp only [State.element_zero, ← condHolds_iff]
    exact ⟨_, scalarResult_of_sop hexec hread, fun h => if_pos h, fun h => if_neg h⟩
  · have hres := scalarResult_of_sop (show exec (.ssel o) s = execSsel o s from rfl) hread
    simpa only [bne_iff_ne, ite_not] using hres
  · show execSmovi o s = _
    rw [execSmovi, State.checked_issue hread, State.putS, scalWrites, BitVec.ofNat_toNat, BitVec.setWidth_eq]
  · show execSaddi o s = _
    rw [execSaddi, State.checked_issue hread, ← State.srcW_add, State.putS, scalWrites, BitVec.ofNat_toNat, BitVec.setWidth_eq]

end Sys2Proof.Machine
end

section
/-! Integer instructions with operands of their own: carry chains, wide and saturating sums, fields, bytes, comparisons and immediates (R107,
R111 to R117). -/
set_option autoImplicit false

namespace Sys2Proof.Machine

/-! ### Lane masks (R19, R107) -/

/-- A sum of the powers of two that a predicate picks below `n` has those bits. -/
theorem foldl_bits (p : Nat → Bool) (n : Nat) :
    let x := (List.range n).foldl (fun a l => if p l then a + 2 ^ l else a) 0
    x < 2 ^ n ∧ ∀ j, x.testBit j = (decide (j < n) && p j) := by
  induction n with
  | zero => simp
  | succ n ih =>
    obtain ⟨hlt, hbits⟩ := ih
    rw [List.range_succ, List.foldl_append, List.foldl_cons, List.foldl_nil]
    generalize (List.range n).foldl (fun a l => if p l then a + 2 ^ l else a) 0 = x at hlt hbits
    have hstep : (if p n then x + 2 ^ n else x) = 2 ^ n * (p n).toNat + x := by cases p n <;> simp [Nat.add_comm]
    intro y
    have hy : y = 2 ^ n * (p n).toNat + x := hstep
    refine ⟨?_, fun j => ?_⟩
    · have hbit := Bool.toNat_le (p n)
      have hmul : 2 ^ n * (p n).toNat ≤ 2 ^ n := by simpa using Nat.mul_le_mul_left (2 ^ n) hbit
      rw [hy, Nat.pow_succ]
      omega
    · rw [hy, Nat.testBit_two_pow_mul_add _ hlt, hbits]
      by_cases hj : j < n
      · simp [hj, show j < n + 1 by omega]
      · by_cases hn : j = n
        · subst hn; cases p j <;> simp
        · obtain ⟨k, hk⟩ : ∃ k, j - n = k + 1 := ⟨j - n - 1, by omega⟩
          cases p n <;> simp [hj, hk, show ¬ j < n + 1 by omega, Nat.testBit_succ]

@[simp] theorem Mask.getLsbD_ofFn (p : Nat → Bool) (j : Nat) : (Mask.ofFn p).getLsbD j = (decide (j < 32) && p j) := by
  obtain ⟨-, hbits⟩ := foldl_bits p 32
  rw [Mask.ofFn, BitVec.getLsbD_ofNat, hbits, ← Bool.and_assoc, Bool.and_self]

theorem Warp.getLsbD_mergeMask (w : Warp) (r : Nat) (m new : Mask) (l : Nat) :
    (w.mergeMask r m new).getLsbD l = if m.has l then new.getLsbD l && w.present.has l else (w.sword r).getLsbD l && w.present.has l := by
  by_cases hl : l < 32
  · cases hm : m.has l <;> simp_all [Warp.mergeMask, Mask.has]
  · simp [BitVec.getLsbD_of_ge _ _ (Nat.le_of_not_lt hl)]

/-! ### Carry chains (R112) -/

theorem addCarry_spec (w a b c : Nat) :
    ((addCarry w a b c).1 : Int) = ((a : Int) + b + c) % (2 ^ w : Int) ∧ ((addCarry w a b c).2 = true ↔ (2 ^ w : Int) ≤ (a : Int) + b + c) := by
  unfold addCarry
  constructor
  · push_cast
    rfl
  · rw [decide_eq_true_iff]
    exact_mod_cast Iff.rfl

theorem subBorrow_spec (w a b c : Nat) :
    ((subBorrow w a b c).1 : Int) = ((a : Int) - b - c) % (2 ^ w : Int) ∧ ((subBorrow w a b c).2 = true ↔ (a : Int) - b - c < 0) := by
  unfold subBorrow
  constructor
  · exact Int.toNat_of_nonneg (Int.emod_nonneg _ (Int.pow_ne_zero (by decide)))
  · rw [decide_eq_true_iff]
    omega

/-- What lane `l` of a carry chain computes: the kept result and the carry out. -/
def State.carryAt (s : State) (o : NOp) (f : Nat → Nat → Nat → Nat → Nat × Bool) (k l : Nat) : Nat × Bool :=
  f o.ty.bits (s.src o.ty o.s0 l) (s.src o.ty o.s1 l) (if (s.me.sword k).getLsbD l then 1 else 0)

/-- A carry chain writes its results and, in the same commit, the merged mask of the carries. -/
theorem State.carryOp_eq {s : State} {i : Instr} {o : NOp} (f : Nat → Nat → Nat → Nat → Nat × Bool) {k : BitVec 9} (hk : o.s2 = .scal k)
    (hread : s.readable i o.g) :
    s.carryOp i o f = s.finish o.e (some (lowWords (fun l => (s.carryAt o f k.toNat l).1)))
      (vecWrites o.v o.d.toNat o.ty.is64 (s.me.execSet o.g) (fun l => (s.carryAt o f k.toNat l).1) ++
        if s.me.execSet o.g = 0#32 then [] else [s.me.maskWrite k.toNat (s.me.execSet o.g)
          (s.me.mergeMask k.toNat (s.me.execSet o.g) (Mask.ofFn (fun l => (s.carryAt o f k.toNat l).2)))]) [] := by
  rw [State.carryOp, State.checked_clear _ _ _ _ hread, hk]
  rfl

/-- A carry chain whose function keeps `r` of the operands and the carry, and carries out when `out` holds of `r`. -/
theorem carry_result {s : State} {i : Instr} {o : NOp} {f : Nat → Nat → Nat → Nat → Nat × Bool} {k : BitVec 9} {r : Int → Int → Int → Int}
    {out : Int → Prop} (hexec : exec i s = .next (s.carryOp i o f)) (hk : o.s2 = .scal k) (hread : s.readable i o.g)
    (hf : ∀ a b c : Nat, ((f o.ty.bits a b c).1 : Int) = r a b c % (2 ^ o.ty.bits : Int) ∧ ((f o.ty.bits a b c).2 = true ↔ out (r a b c))) :
    let m := s.me.execSet o.g
    ∃ (x : Nat → Nat) (mk : Word),
      (∀ l, l < 32 → m.has l = true →
        let z := r (s.src o.ty o.s0 l) (s.src o.ty o.s1 l) (if (s.me.sword k.toNat).getLsbD l then 1 else 0)
        (x l : Int) = z % (2 ^ o.ty.bits : Int) ∧ (s.me.present.has l = true → (mk.getLsbD l = true ↔ out z))) ∧
      (∀ l, m.has l = false → mk.getLsbD l = ((s.me.sword k.toNat).getLsbD l && s.me.present.has l)) ∧
      exec i s = .next (s.finish o.e (some (lowWords x)) (vecWrites o.v o.d.toNat o.ty.is64 m x ++
        if m = 0#32 then [] else [s.me.maskWrite k.toNat m mk]) []) := by
  intro m
  refine ⟨fun l => (s.carryAt o f k.toNat l).1, s.me.mergeMask k.toNat m (Mask.ofFn (fun l => (s.carryAt o f k.toNat l).2)),
    fun l hl hm => ?_, fun l hm => ?_, ?_⟩
  · intro z
    obtain ⟨hval, hout⟩ := hf (s.src o.ty o.s0 l) (s.src o.ty o.s1 l) (if (s.me.sword k.toNat).getLsbD l then 1 else 0)
    have hcarry : ((if (s.me.sword k.toNat).getLsbD l then 1 else 0 : Nat) : Int) = if (s.me.sword k.toNat).getLsbD l then 1 else 0 := by
      split <;> rfl
    rw [hcarry] at hval hout
    refine ⟨hval, fun hp => ?_⟩
    rw [Warp.getLsbD_mergeMask, if_pos hm, hp, Bool.and_true, Mask.getLsbD_ofFn, decide_eq_true hl, Bool.true_and]
    exact hout
  · rw [Warp.getLsbD_mergeMask, hm]
    rfl
  · rw [hexec, State.carryOp_eq f hk hread]

/-- Settles O8: VADDC keeps the sum and VSUBB the difference, by `addCarry_spec` and `subBorrow_spec`. -/
theorem carryChains : Obligations.CarryChains := by
  intro o s sub k i m _ hk hread
  cases sub with
  | false =>
    exact carry_result (i := .vaddc o) (f := addCarry) (r := fun a b c => a + b + c) (out := fun z => (2 ^ o.ty.bits : Int) ≤ z)
      rfl hk hread (addCarry_spec _)
  | true =>
    exact carry_result (i := .vsubb o) (f := subBorrow) (r := fun a b c => a - b - c) (out := fun z => z < 0)
      rfl hk hread (subBorrow_spec _)

/-! ### Operands of a well-formed operation (checks 3 and 4 of R54) -/

/-- What the checks of R54 say of the type and the sources of an operation of format N. -/
theorem Instr.wellFormed_sources {i : Instr} {f : NInfo} {o : NOp} (henc : i.enc = .n f o) (h : i.wellFormed = true) :
    i.special3 = true ∧ f.tys.has o.ty = true ∧ f.s2.ok3 o.s2 = true ∧ f.s0.ok4 o.ty o.s0 = true ∧ f.s1.ok4 o.ty o.s1 = true ∧
      f.s2.ok4 o.ty o.s2 = true := by
  simp only [Instr.wellFormed, Instr.ok3, Instr.ok4, NInfo.ok3, henc, Bool.and_eq_true] at h
  obtain ⟨⟨hspecial, ⟨⟨⟨⟨⟨htys, -⟩, -⟩, -⟩, -⟩, h2⟩, -⟩, -, ⟨⟨k0, k1⟩, k2⟩, -⟩ := h
  exact ⟨hspecial, htys, h2, k0, k1, k2⟩

theorem TySet.w32_has {t : Ty} (h : TySet.w32.has t = true) : t = .i32 ∨ t = .n32 := by simpa [TySet.has] using h

/-- A literal control operand within its bound. -/
theorem SRule.lit_ok {n : Nat} {t : Ty} {x : Src} (h3 : (SRule.lit n).ok3 x = true) (h4 : (SRule.lit n).ok4 t x = true) :
    ∃ k : BitVec 8, x = .lit k ∧ k.toNat ≤ n := by
  cases x <;> simp [SRule.ok4] at h4
  next k => exact ⟨k, rfl, by simpa [SRule.ok3] using h3⟩

theorem SRule.scale_ok {t : Ty} {x : Src} (h : SRule.scale.ok4 t x = true) : ∃ k : BitVec 8, x = .lit k ∧ k.toNat < 8 := by
  cases x <;> simp [SRule.ok4] at h
  next k => exact ⟨k, rfl, by omega⟩

/-- An integer source of a vector instruction is no floating constant. -/
theorem SRule.vty_not_fc {t : Ty} {x : Src} (ht : t = .i32 ∨ t = .n32) (h : SRule.vty.ok4 t x = true) (k : BitVec 6) : x ≠ .fc k := by
  rintro rfl
  rcases ht with rfl | rfl <;> simp [SRule.ok4, Ty.isInt, Src.isFc] at h

theorem litVal_word_lt {t : Ty} (ht : t = .i32 ∨ t = .n32) (z : Int) : litVal t z < 2 ^ 32 := by
  have hval : litVal t z = keep 32 z := by rcases ht with rfl | rfl <;> simp [litVal, replicateCode, Ty.isInt, Ty.bits, Ty.elems, List.range_succ]
  rw [hval, keep_eq]
  exact BitVec.isLt _

/-- A source of a 32-bit integer type is a word. -/
theorem State.src_word_lt (s : State) {t : Ty} (ht : t = .i32 ∨ t = .n32) {x : Src} (hx : SRule.vty.ok4 t x = true) (l : Nat) :
    s.src t x l < 2 ^ 32 := by
  have hnarrow : t.is64 = false := by rcases ht with rfl | rfl <;> rfl
  unfold State.src
  cases x
  case vec | scal | const => simpa [hnarrow] using BitVec.isLt _
  case latch => exact BitVec.isLt _
  case lit | nlit => exact litVal_word_lt ht _
  case fc k => exact absurd rfl (SRule.vty_not_fc ht hx k)

/-! ### Instructions on whole words (R114 to R116) -/

theorem raw_readInt (w : Nat) (sg : Bool) (x : Nat) : raw w (readInt sg w x) = x % 2 ^ w := by
  have hcode : ((x : Int) % 2 ^ w % 2 ^ w).toNat = x % 2 ^ w := by
    rw [Int.emod_emod]
    norm_cast
  unfold raw readInt
  split
  · rw [Int.sub_emod_right, hcode]
  · exact hcode

theorem raw_readInt_word (sg : Bool) {x : Nat} (hx : x < 2 ^ 32) : raw 32 (readInt sg 32 x) = x := by
  rw [raw_readInt, Nat.mod_eq_of_lt hx]

/-- The result of an integer element function on the source words of lane `l`. -/
def State.intWord (s : State) (o : NOp) (f : IntFn) (l : Nat) : Int × Nat :=
  f 32 o.ty.signed (readInt o.ty.signed 32 (s.src o.ty o.s0 l)) (readInt o.ty.signed 32 (s.src o.ty o.s1 l))
    (readInt o.ty.signed 32 (s.src o.ty o.s2 l))

theorem State.intAt_word (s : State) {o : NOp} (f : IntFn) (ht : o.ty = .i32 ∨ o.ty = .n32) (l : Nat) :
    s.intAt o f l = (keep 32 (s.intWord o f l).1, (s.intWord o f l).2) := by
  have hbits : o.ty.bits = 32 := by rcases ht with h | h <;> rw [h] <;> rfl
  have helems : o.ty.elems = 1 := by rcases ht with h | h <;> rw [h] <;> rfl
  rw [State.intAt_eq]
  simp [packed, joined, helems, State.intElement, State.intWord, State.element_zero, hbits, List.range_succ]

/-- A word instruction on readable operands gives each lane what its element function makes of the words. -/
theorem vectorResult_word {i : Instr} {o : NOp} {s : State} {f : IntFn} {P : Nat → Nat → Nat → Prop} (ht : o.ty = .i32 ∨ o.ty = .n32)
    (hexec : exec i s = .next (s.vint i o f)) (hread : s.readable i o.g)
    (hlane : ∀ l, P l (keep 32 (s.intWord o f l).1) (s.intWord o f l).2) : vectorResult i o s false P := by
  have hnarrow : o.ty.is64 = false := by rcases ht with h | h <;> rw [h] <;> rfl
  have hexec' : exec i s = .next (s.vop i o false (s.intAt o f)) := by rw [hexec, State.vint, hnarrow]
  exact vectorResult_of_vop hexec' hread (fun l => by rw [State.intAt_word s f ht]; exact hlane l)

theorem fFunnel_word (sg : Bool) {a b c : Nat} (ha : a < 2 ^ 32) (hb : b < 2 ^ 32) (hc : c < 2 ^ 32) :
    fFunnel 32 sg (readInt sg 32 a) (readInt sg 32 b) (readInt sg 32 c) = ((((a * 2 ^ 32 + b) / 2 ^ (c % 64) : Nat) : Int), 0) := by
  rw [fFunnel, raw_readInt_word sg ha, raw_readInt_word sg hb, raw_readInt_word sg hc, Int.natCast_ediv, Int.natCast_add, Int.natCast_mul, Int.natCast_pow,
    Int.natCast_pow]
  rfl

/-- A field of `n` bits extended by its sign, as a word. -/
theorem keep_readInt_true {n x : Nat} (hn : n ≤ 32) (hx : x < 2 ^ n) :
    keep 32 (readInt true n x) = if 2 ^ (n - 1) ≤ x then x + (2 ^ 32 - 2 ^ n) else x := by
  have hn32 : 2 ^ n ≤ 2 ^ 32 := Nat.pow_le_pow_right Nat.two_pos hn
  have hcast : (2 : Int) ^ n = ((2 ^ n : Nat) : Int) := (Int.natCast_pow 2 n).symm
  have hmod : (x : Int) % ((2 ^ n : Nat) : Int) = x := by rw [← Int.natCast_emod, Nat.mod_eq_of_lt hx]
  unfold keep readInt
  rw [Nat.mod_eq_of_lt hx, hcast, hmod]
  simp only [Bool.true_and, decide_eq_true_eq]
  generalize 2 ^ n = q at hx hn32
  split <;> omega

theorem fBfe_word (sg : Bool) {a c : Nat} (b : Int) (ha : a < 2 ^ 32) (hc : c < 2 ^ 32) :
    let p := min (c % 256) 32
    let n := min (c / 256 % 256) (32 - p)
    let field := a / 2 ^ p % 2 ^ n
    fBfe 32 sg (readInt sg 32 a) (readInt sg 32 c) b = (if sg && n != 0 then readInt true n field else field, 0) := by
  rw [fBfe, raw_readInt_word sg ha, raw_readInt_word sg hc]
  rfl

/-- A field of `n` bits at `p`: its mask. -/
theorem testBit_fieldMask (n p j : Nat) : ((2 ^ n - 1) * 2 ^ p).testBit j = (decide (p ≤ j) && decide (j < p + n)) := by
  rw [Nat.testBit_mul_two_pow, Nat.testBit_two_pow_sub_one]
  by_cases h : p ≤ j
  · have hiff : j - p < n ↔ j < p + n := by omega
    simp [h, hiff]
  · simp [h]

/-- VBFI's word is the field of `b` at `p` inside the rest of `a`. -/
theorem testBit_fBfi_word (sg : Bool) {a b c : Nat} (ha : a < 2 ^ 32) (hb : b < 2 ^ 32) (hc : c < 2 ^ 32) {j : Nat} (hj : j < 32) :
    let p := min (c % 256) 32
    let n := min (c / 256 % 256) (32 - p)
    (keep 32 (fBfi 32 sg (readInt sg 32 a) (readInt sg 32 b) (readInt sg 32 c)).1).testBit j =
      if p ≤ j ∧ j < p + n then b.testBit (j - p) else a.testBit j := by
  intro p n
  have hpn : p + n ≤ 32 := by omega
  have hmask : (2 ^ n - 1) * 2 ^ p < 2 ^ 32 := by
    refine Nat.lt_pow_two_of_testBit _ (fun i hi => ?_)
    rw [testBit_fieldMask, decide_eq_false (show ¬ i < p + n by omega), Bool.and_false]
  have hval : (fBfi 32 sg (readInt sg 32 a) (readInt sg 32 b) (readInt sg 32 c)).1 =
      ((a &&& (2 ^ 32 - ((2 ^ n - 1) * 2 ^ p + 1)) ||| b * 2 ^ p &&& (2 ^ n - 1) * 2 ^ p : Nat) : Int) := by
    rw [fBfi, raw_readInt_word sg ha, raw_readInt_word sg hb, raw_readInt_word sg hc]
    show ((Nat.lor (Nat.land a (2 ^ 32 - 1 - (2 ^ n - 1) * 2 ^ p % 2 ^ 32)) (Nat.land (b * 2 ^ p) ((2 ^ n - 1) * 2 ^ p)) : Nat) : Int) = _
    rw [Nat.mod_eq_of_lt hmask, Nat.sub_sub, Nat.add_comm 1]
    rfl
  rw [hval, keep_natCast, Nat.testBit_mod_two_pow, Nat.testBit_or, Nat.testBit_and, Nat.testBit_and, Nat.testBit_two_pow_sub_succ hmask,
    testBit_fieldMask, Nat.testBit_mul_two_pow]
  by_cases hlow : p ≤ j <;> by_cases hhigh : j < p + n <;> simp [hj, hlow, hhigh]

/-- Byte `m` of a pair of words. -/
theorem byte_of_pair {a : Nat} (b : Nat) (ha : a < 2 ^ 32) {m : Nat} (hm : m < 8) :
    (b * 2 ^ 32 + a) / 2 ^ (8 * m) % 256 = (if m < 4 then a / 2 ^ (8 * m) else b / 2 ^ (8 * (m - 4))) % 256 := by
  obtain rfl | rfl | rfl | rfl | rfl | rfl | rfl | rfl : m = 0 ∨ m = 1 ∨ m = 2 ∨ m = 3 ∨ m = 4 ∨ m = 5 ∨ m = 6 ∨ m = 7 := by omega
  all_goals simp only [Nat.reduceLT, Nat.reduceMul, Nat.reduceSub, Nat.reducePow, if_true, if_false]; omega

theorem byte_of_sum {x : Nat → Nat} (hx : ∀ j, x j < 256) {j : Nat} (hj : j < 4) :
    (x 0 + 256 * x 1 + 65536 * x 2 + 16777216 * x 3) % 2 ^ 32 / 2 ^ (8 * j) % 256 = x j := by
  have h0 := hx 0
  have h1 := hx 1
  have h2 := hx 2
  have h3 := hx 3
  obtain rfl | rfl | rfl | rfl : j = 0 ∨ j = 1 ∨ j = 2 ∨ j = 3 := by omega
  all_goals omega

theorem permByte_lt (a b c j : Nat) : permByte a b c j < 256 := by
  have hpick (p : Prop) [Decidable p] (x : Nat) (hx : x < 256) : (if p then x else if x / 128 = 1 then 255 else 0) < 256 := by
    split
    · exact hx
    · split <;> decide
  exact hpick _ _ (Nat.mod_lt _ (by decide))

theorem fPermb_word (sg : Bool) {a b c : Nat} (ha : a < 2 ^ 32) (hb : b < 2 ^ 32) (hc : c < 2 ^ 32) :
    let y := permByte a b c
    fPermb 32 sg (readInt sg 32 a) (readInt sg 32 b) (readInt sg 32 c) = (((y 0 + 256 * y 1 + 65536 * y 2 + 16777216 * y 3 : Nat) : Int), 0) := by
  have hbyte (j : Nat) : (let n := c / 2 ^ (4 * j) % 16
      let x := (b * 2 ^ 32 + a) / 2 ^ (8 * (n % 8)) % 256
      if n < 8 then x else if 128 ≤ x then 255 else 0) = permByte a b c j := by
    unfold permByte
    dsimp only
    rw [byte_of_pair b ha (Nat.mod_lt _ (by decide))]
    generalize c / 2 ^ (4 * j) % 16 = n
    generalize hx : (if n % 8 < 4 then a / 2 ^ (8 * (n % 8)) else b / 2 ^ (8 * (n % 8 - 4))) % 256 = x
    have hx256 : x < 256 := hx ▸ Nat.mod_lt _ (by decide)
    have hsign : 128 ≤ x ↔ x / 128 = 1 := by omega
    have hplain : n < 8 ↔ n / 8 = 0 := by omega
    simp only [hsign, hplain]
  intro y
  rw [fPermb, raw_readInt_word sg ha, raw_readInt_word sg hb, raw_readInt_word sg hc]
  dsimp only at hbyte ⊢
  rw [hbyte 0, hbyte 1, hbyte 2, hbyte 3]
  simp only [Int.natCast_add, Int.natCast_mul]
  rfl

/-! ### Wide and saturating sums, fields and bytes (R111, R114 to R116) -/

theorem vectorResult_vmadw (o : NOp) (s : State) (hw : (Instr.vmadw o).wellFormed = true) (hread : s.readable (.vmadw o) o.g) :
    vectorResult (.vmadw o) o s true (fun l x fl => fl = 0 ∧
      x = keep 64 (s.element o.ty o.s0 l 0 * s.element o.ty o.s1 l 0 +
        readInt o.ty.signed 64 (s.src (if o.ty.signed then .i64 else .n64) o.s2 l))) := by
  obtain ⟨-, htys, -⟩ := Instr.wellFormed_sources rfl hw
  refine vectorResult_of_vop (show exec (.vmadw o) s = execVmadw o s from rfl) hread (fun l => ⟨rfl, ?_⟩)
  rw [State.element_zero, State.element_zero]
  rcases TySet.w32_has htys with h | h <;> rw [h] <;> rfl

theorem foldl_add_sum (g : Nat → Nat) (ks : List Nat) (c : Nat) : ks.foldl (fun a k => a + g k) c = c + (ks.map g).sum := by
  rw [List.sum_eq_foldl, ← List.foldl_assoc (op := fun x y : Nat => x + y), Nat.add_zero, List.foldl_map]

theorem vectorResult_vsad (o : NOp) (s : State) (hread : s.readable (.vsad o) o.g) :
    vectorResult (.vsad o) o s false (fun l x fl => fl = 0 ∧
      x = ((s.src o.ty o.s2 l) + ((List.range o.ty.elems).map (fun k =>
        (s.element o.ty o.s0 l k - s.element o.ty o.s1 l k).natAbs)).sum) % 2 ^ 32) :=
  vectorResult_of_vop (show exec (.vsad o) s = execVsad o s from rfl) hread (fun l => ⟨rfl, by rw [← foldl_add_sum]; rfl⟩)

theorem vectorResult_vsat (o : NOp) (s : State) (hw : (Instr.vsat o).wellFormed = true) (hread : s.readable (.vsat o) o.g) :
    vectorResult (.vsat o) o s o.ty.is64 (fun l x fl =>
      let lo : Int := if o.ty.signed then -(2 ^ (o.ty.bits - 1) : Int) else 0
      let hi : Int := if o.ty.signed then 2 ^ (o.ty.bits - 1) - 1 else 2 ^ o.ty.bits - 1
      let r (k : Nat) : Int := if o.s2 = .lit 0 then s.element o.ty o.s0 l k + s.element o.ty o.s1 l k
        else s.element o.ty o.s0 l k - s.element o.ty o.s1 l k
      fl = joined o.ty (fun k => if r k < lo ∨ hi < r k then fCONV_RANGE else 0) ∧
      x = packed o.ty (fun k => keep o.ty.bits (max lo (min hi (r k))))) := by
  obtain ⟨-, -, h3, -, -, h4⟩ := Instr.wellFormed_sources rfl hw
  obtain ⟨n, hn, -⟩ := SRule.lit_ok h3 h4
  have hop : o.s2.ctlVal = 0 ↔ o.s2 = .lit 0 := by
    rw [hn, Src.ctlVal, Src.lit.injEq, ← BitVec.toNat_inj]
    exact Iff.rfl
  have hres := vectorResult_vint (show exec (.vsat o) s = .next (s.vint (.vsat o) o (fSat o.s2.ctlVal)) from rfl) hread
  simp only [State.intElement, fSat, satInt_eq, hop] at hres
  exact hres

theorem vectorResult_vlea (o : NOp) (s : State) (hw : (Instr.vlea o).wellFormed = true) (hread : s.readable (.vlea o) o.g) :
    vectorResult (.vlea o) o s o.ty.is64 (fun l x fl => fl = 0 ∧
      ∃ n : BitVec 8, o.s2 = .lit n ∧ n.toNat < 8 ∧ x = (s.src o.ty o.s0 l + s.src o.ty o.s1 l * 2 ^ n.toNat) % 2 ^ o.ty.bits) := by
  obtain ⟨-, -, -, -, -, h4⟩ := Instr.wellFormed_sources rfl hw
  obtain ⟨n, hn, hlt⟩ := SRule.scale_ok h4
  exact vectorResult_of_vop (show exec (.vlea o) s = execVlea o s from rfl) hread (fun l => ⟨rfl, n, hn, hlt, by rw [hn]; rfl⟩)

theorem vectorResult_vfunnel (o : NOp) (s : State) (hw : (Instr.vfunnel o).wellFormed = true) (hread : s.readable (.vfunnel o) o.g) :
    vectorResult (.vfunnel o) o s false (fun l x fl => fl = 0 ∧
      x = (s.src o.ty o.s0 l * 2 ^ 32 + s.src o.ty o.s1 l) / 2 ^ (s.src o.ty o.s2 l % 64) % 2 ^ 32) := by
  obtain ⟨-, htys, -, h0, h1, h2⟩ := Instr.wellFormed_sources rfl hw
  have ht := TySet.w32_has htys
  refine vectorResult_word ht rfl hread (fun l => ?_)
  rw [State.intWord, fFunnel_word _ (s.src_word_lt ht h0 l) (s.src_word_lt ht h1 l) (s.src_word_lt ht h2 l)]
  exact ⟨rfl, keep_natCast _ _⟩

theorem vectorResult_vbfe (o : NOp) (s : State) (hw : (Instr.vbfe o).wellFormed = true) (hread : s.readable (.vbfe o) o.g) :
    vectorResult (.vbfe o) o s false (fun l x fl => fl = 0 ∧
      let c := s.src o.ty o.s1 l
      let p := min (c % 256) 32
      let n := min (c / 256 % 256) (32 - p)
      let field := s.src o.ty o.s0 l / 2 ^ p % 2 ^ n
      x = if o.ty = .i32 ∧ 0 < n ∧ 2 ^ (n - 1) ≤ field then field + (2 ^ 32 - 2 ^ n) else field) := by
  obtain ⟨-, htys, -, h0, h1, -⟩ := Instr.wellFormed_sources rfl hw
  have ht := TySet.w32_has htys
  have hsigned : o.ty.signed = true ↔ o.ty = .i32 := by rcases ht with h | h <;> rw [h] <;> decide
  refine vectorResult_word ht rfl hread (fun l => ?_)
  rw [State.intWord, fBfe_word _ _ (s.src_word_lt ht h0 l) (s.src_word_lt ht h1 l)]
  refine ⟨rfl, ?_⟩
  intro c p n field
  have hn : n ≤ 32 := by omega
  have hfield : field < 2 ^ n := Nat.mod_lt _ (Nat.two_pow_pos n)
  have hword : field < 2 ^ 32 := Nat.lt_of_lt_of_le hfield (Nat.pow_le_pow_right Nat.two_pos hn)
  show keep 32 (if o.ty.signed && n != 0 then readInt true n field else field) = _
  by_cases hext : o.ty = .i32 ∧ 0 < n
  · obtain ⟨hty, hpos⟩ := hext
    rw [if_pos (by simp [hsigned.2 hty, Nat.pos_iff_ne_zero.1 hpos]), keep_readInt_true hn hfield]
    simp only [hty, hpos, true_and]
  · have hplain : ¬ (o.ty.signed && n != 0) = true := by
      rw [Bool.and_eq_true, hsigned, bne_iff_ne, ← Nat.pos_iff_ne_zero]
      exact hext
    rw [if_neg hplain, keep_natCast, Nat.mod_eq_of_lt hword, if_neg (fun h => hext ⟨h.1, h.2.1⟩)]

theorem vectorResult_vbfi (o : NOp) (s : State) (hw : (Instr.vbfi o).wellFormed = true) (hread : s.readable (.vbfi o) o.g) :
    vectorResult (.vbfi o) o s false (fun l x fl => fl = 0 ∧
      let c := s.src o.ty o.s2 l
      let p := min (c % 256) 32
      let n := min (c / 256 % 256) (32 - p)
      ∀ j, j < 32 → x.testBit j = if p ≤ j ∧ j < p + n then (s.src o.ty o.s1 l).testBit (j - p) else (s.src o.ty o.s0 l).testBit j) := by
  obtain ⟨-, htys, -, h0, h1, h2⟩ := Instr.wellFormed_sources rfl hw
  have ht := TySet.w32_has htys
  exact vectorResult_word ht rfl hread (fun l => ⟨rfl, fun j hj =>
    testBit_fBfi_word _ (s.src_word_lt ht h0 l) (s.src_word_lt ht h1 l) (s.src_word_lt ht h2 l) hj⟩)

theorem vectorResult_vpermb (o : NOp) (s : State) (hw : (Instr.vpermb o).wellFormed = true) (hread : s.readable (.vpermb o) o.g) :
    vectorResult (.vpermb o) o s false (fun l x fl => fl = 0 ∧
      ∀ j, j < 4 → x / 2 ^ (8 * j) % 256 = permByte (s.src o.ty o.s0 l) (s.src o.ty o.s1 l) (s.src o.ty o.s2 l) j) := by
  obtain ⟨-, htys, -, h0, h1, h2⟩ := Instr.wellFormed_sources rfl hw
  have ht := TySet.w32_has htys
  refine vectorResult_word ht rfl hread (fun l => ?_)
  rw [State.intWord, fPermb_word _ (s.src_word_lt ht h0 l) (s.src_word_lt ht h1 l) (s.src_word_lt ht h2 l)]
  refine ⟨rfl, fun j hj => ?_⟩
  rw [keep_natCast]
  exact byte_of_sum (permByte_lt _ _ _) hj

/-- Settles O9, instruction by instruction. -/
theorem integerSpecialResults : Obligations.IntegerSpecialResults :=
  ⟨fun o s => ⟨vectorResult_vmadw o s, fun _ => vectorResult_vsad o s, vectorResult_vsat o s, vectorResult_vlea o s⟩,
    fun o s => ⟨vectorResult_vfunnel o s, vectorResult_vbfe o s, vectorResult_vbfi o s, vectorResult_vpermb o s⟩⟩

/-! ### Comparisons and immediates (R107, R110, R117) -/

/-- An operation that merges a mask into D and raises no flag. -/
theorem State.mop_plain {s : State} {i : Instr} {o : NOp} (hread : s.readable i o.g) (p : Nat → Bool) :
    let m := s.me.execSet o.g
    let mk := s.me.mergeMask o.d.toNat m (Mask.ofFn p)
    s.mop i o (fun l => (p l, 0)) = s.finish o.e (some (Lanes.splat mk)) (if o.v || m = 0#32 then [] else [s.me.maskWrite o.d.toNat m mk]) [] := by
  intro m mk
  rw [State.mop, State.checked_clear _ _ _ _ hread, State.putM, condsOf_zero _ _ _ (fun _ => rfl)]

theorem exec_vcmp (o : NOp) (s : State) (hread : s.readable (.vcmp o) o.g) :
    ∃ mk : Word,
      (∀ l, (s.me.execSet o.g).has l = true → s.me.present.has l = true →
        (mk.getLsbD l = true ↔ comparison o.s2.ctlVal o.ty.bits (s.element o.ty o.s0 l 0) (s.element o.ty o.s1 l 0))) ∧
      (∀ l, (s.me.execSet o.g).has l = false → mk.getLsbD l = ((s.me.sword o.d.toNat).getLsbD l && s.me.present.has l)) ∧
      exec (.vcmp o) s = .next (s.finish o.e (some (Lanes.splat mk))
        (if o.v || s.me.execSet o.g = 0#32 then [] else [s.me.maskWrite o.d.toNat (s.me.execSet o.g) mk]) []) := by
  have hexec : exec (.vcmp o) s = execVcmp o s := rfl
  refine ⟨_, fun l hm hp => ?_, fun l hm => ?_, by rw [hexec, execVcmp, State.mop_plain hread]⟩
  · have hl : l < 32 := BitVec.lt_of_getLsbD hm
    rw [Warp.getLsbD_mergeMask, if_pos hm, hp, Bool.and_true, Mask.getLsbD_ofFn, decide_eq_true hl, Bool.true_and, condHolds_iff,
      State.element_zero, State.element_zero]
  · rw [Warp.getLsbD_mergeMask, hm]
    rfl

/-- Bit `l` of a lane's scalar word. -/
theorem State.getLsbD_srcW (s : State) (x : Src) {l : Nat} (hl : l < 32) : (s.srcW x l).getLsbD l = (s.src .n32 x l).testBit l := by
  rw [State.srcW, BitVec.getLsbD_ofNat, decide_eq_true hl, Bool.true_and]

/-- Settles O10: a comparison is a merged mask of `condHolds`, a selection looks at the lane's bit, an immediate needs no guard. -/
theorem compareSelectImmediate : Obligations.CompareSelectImmediate := by
  intro s
  refine ⟨fun o _ hread => exec_vcmp o s hread, fun o _ hread => ?_, fun o hread => ⟨fun _ => o.imm.toNat, fun _ => rfl, ?_⟩,
    fun o hread => ⟨fun l => (s.src .n32 o.s0 l + o.imm.toNat) % 2 ^ 32, fun l => ?_, ?_⟩⟩
  · exact vectorResult_of_vop_lanes (show exec (.vsel o) s = execVsel o s from rfl) hread (fun l hl =>
      ⟨rfl, by rw [s.getLsbD_srcW _ hl]⟩)
  · show execVmovi o s = _
    rw [execVmovi, State.checked_issue hread, State.putV_plain]
  · show BitVec.ofNat 32 ((s.src .n32 o.s0 l + o.imm.toNat) % 2 ^ 32) = _
    rw [← State.srcW_add, BitVec.ofNat_toNat, BitVec.setWidth_eq]
  · show execVaddi o s = _
    rw [execVaddi, State.checked_issue hread, State.putV_plain]

end Sys2Proof.Machine
end

section
/-! Moves between lanes, ballots, matches and votes (R119, R141 to R145, R260). -/
set_option autoImplicit false

namespace Sys2Proof.Machine

/-! ### Subgroups (R141, R143) -/

theorem Warp.sgSize_pos (w : Warp) (ctl : Nat) : 0 < w.sgSize ctl := Nat.lt_of_lt_of_le Nat.one_pos (Nat.le_max_left _ _)

/-- Lanes have one base when they lie in one subgroup. -/
theorem sgBase_eq_iff {size : Nat} (hsize : 0 < size) (j l : Nat) : sgBase size j = sgBase size l ↔ j / size = l / size := by
  have hbase (k : Nat) : sgBase size k = size * (k / size) := by
    have hk := Nat.div_add_mod k size
    unfold sgBase
    omega
  rw [hbase, hbase, Nat.mul_right_inj (Nat.pos_iff_ne_zero.1 hsize)]

theorem mem_sgLanes {size : Nat} (hsize : 0 < size) (m : Mask) (j l : Nat) :
    j ∈ sgLanes size m l ↔ j < 32 ∧ m.has j = true ∧ j / size = l / size := by
  simp only [sgLanes, Mask.lanes, List.mem_filter, List.mem_range, beq_iff_eq, sgBase_eq_iff hsize, and_assoc]

/-- The lane that each mode of VSHFL reads; a lane outside the subgroup gives the reader's own (R143). -/
theorem shflLane_eq {size : Nat} (hsize : 0 < size) (n l : Nat) :
    let j := l % size
    shflLane size 0 n l = l - j + n % size ∧
    shflLane size 1 n l = (if n ≤ j then l - n else l) ∧
    shflLane size 2 n l = (if j + n < size then l + n else l) ∧
    shflLane size 3 n l = (if j ^^^ (n % size) < size then l - j + (j ^^^ (n % size)) else l) := by
  intro j
  have hj : j < size := Nat.mod_lt l hsize
  have hjl : j ≤ l := Nat.mod_le l size
  have hn : n % size < size := Nat.mod_lt n hsize
  have hxor : Nat.xor (l % size) (n % size) = j ^^^ (n % size) := rfl
  refine ⟨?_, ?_, ?_, ?_⟩ <;> simp only [shflLane, sgBase, hxor, Bool.and_eq_true, decide_eq_true_eq]
  · rw [if_pos (by omega), Int.toNat_natCast]
  all_goals split <;> split <;> omega

/-! ### SLANE and VPUT (R119, R260) -/

@[simp] theorem Mask.has_single (k : Nat) (l : Nat) : (Mask.single k).has l = (decide (l < 32) && l == k) := Mask.getLsbD_ofFn _ _

theorem Lanes.at_ofFn (f : Nat → Word) {l : Nat} (hl : l < 32) : (Lanes.ofFn f).at l = f l := by
  simp [Lanes.at, Lanes.ofFn, hl]

/-- SLANE reads the tags of lane L alone. -/
theorem scalarResult_slane (o : NOp) (s : State) (hread : s.tagRead (.slane o) = none) :
    scalarResult (.slane o) o s o.ty.is64 (if s.me.present.has (s.src .n32 o.s1 0 % 32) then s.src o.ty o.s0 (s.src .n32 o.s1 0 % 32) else 0) := by
  show execSlane o s = _
  rw [execSlane, State.checked_clear _ _ _ _ hread]
  rfl

/-- The lanes of D that VPUT writes: lane L, if some lane executes and L has not exited. -/
def State.putLane (s : State) (o : NOp) : Mask :=
  let k := s.src .n32 o.s1 0 % 32
  if s.me.execSet o.g != 0#32 && s.me.unexited.has k then Mask.single k else 0#32

theorem State.putLane_live {s : State} {o : NOp} (hm : s.me.execSet o.g ≠ 0#32) (hlive : s.me.unexited.has (s.src .n32 o.s1 0 % 32) = true) :
    s.putLane o = Mask.single (s.src .n32 o.s1 0 % 32) := if_pos (by simp [hm, hlive])

theorem State.putLane_none {s : State} {o : NOp} (h : s.me.execSet o.g = 0#32 ∨ s.me.unexited.has (s.src .n32 o.s1 0 % 32) = false) :
    s.putLane o = 0#32 := if_neg (by rcases h with h | h <;> simp [h])

/-- VPUT writes the uniform source to the lanes of `putLane`, in D and in b0. -/
theorem exec_vput (o : NOp) (s : State) (hread : s.readable (.vput o) o.g) :
    exec (.vput o) s = .next (s.finish o.e
      (some (Lanes.ofFn (fun l => if (s.putLane o).has l then BitVec.ofNat 32 (s.src o.ty o.s0 0) else s.me.vword o.d.toNat l)))
      (vecWrites o.v o.d.toNat o.ty.is64 (s.putLane o) (fun _ => s.src o.ty o.s0 0)) []) := by
  show execVput o s = _
  rw [execVput, State.checked_clear _ _ _ _ hread]
  rfl

/-! ### Results of the cross-lane instructions (R142, R143, R145) -/

/-- A cross-lane operation that reads no tagged word. -/
theorem vectorResult_of_tagRead {i : Instr} {o : NOp} {s : State} {wide : Bool} {k : State → State} {f : Nat → Flagged}
    {P : Nat → Nat → Nat → Prop} (hexec : exec i s = .next (s.orPoison (s.tagRead i) k)) (hread : s.tagRead i = none)
    (hk : k s = s.putV o.e o.v o.d.toNat (s.me.execSet o.g) wide f) (hlane : ∀ l, P l (f l).1 (f l).2) : vectorResult i o s wide P :=
  ⟨fun l => (f l).1, fun l => (f l).2, fun l _ => hlane l, by rw [hexec, hread, State.orPoison, hk, State.putV_eq]⟩

/-- The lanes of `l`'s subgroup for which `p` holds, as a word. -/
theorem testBit_sgMask {size : Nat} (hsize : 0 < size) (m : Mask) (l : Nat) (p : Nat → Bool) (j : Nat) :
    (Mask.ofFn (fun j => (sgLanes size m l).contains j && p j)).toNat.testBit j = true ↔
      (j < 32 ∧ m.has j = true ∧ j / size = l / size) ∧ p j = true := by
  rw [BitVec.testBit_toNat, Mask.getLsbD_ofFn, Bool.and_eq_true, Bool.and_eq_true, List.contains_iff_mem, mem_sgLanes hsize, decide_eq_true_iff]
  exact ⟨fun ⟨_, h⟩ => h, fun h => ⟨h.1.1, h⟩⟩

theorem vectorResult_vballot (o : NOp) (s : State) (hread : s.readable (.vballot o) o.g) :
    vectorResult (.vballot o) o s false (fun l x fl => fl = 0 ∧ x < 2 ^ 32 ∧ ∀ j, x.testBit j = true ↔
      (j < 32 ∧ (s.me.execSet o.g).has j = true ∧ j / s.me.sgSize o.s2.ctlVal = l / s.me.sgSize o.s2.ctlVal) ∧ s.src o.ty o.s0 j ≠ 0) :=
  vectorResult_of_vop (show exec (.vballot o) s = execVballot o s from rfl) hread (fun l => ⟨rfl, BitVec.isLt _, fun j => by
    rw [testBit_sgMask (s.me.sgSize_pos _) _ l (fun j => s.src o.ty o.s0 j != 0), bne_iff_ne]⟩)

theorem vectorResult_vmatch (o : NOp) (s : State) (hread : s.readable (.vmatch o) o.g) :
    vectorResult (.vmatch o) o s false (fun l x fl => fl = 0 ∧ x < 2 ^ 32 ∧ ∀ j, x.testBit j = true ↔
      (j < 32 ∧ (s.me.execSet o.g).has j = true ∧ j / s.me.sgSize o.s2.ctlVal = l / s.me.sgSize o.s2.ctlVal) ∧
        s.src o.ty o.s0 j = s.src o.ty o.s0 l) :=
  vectorResult_of_vop (show exec (.vmatch o) s = execVmatch o s from rfl) hread (fun l => ⟨rfl, BitVec.isLt _, fun j => by
    rw [testBit_sgMask (s.me.sgSize_pos _) _ l (fun j => s.src o.ty o.s0 j == s.src o.ty o.s0 l), beq_iff_eq]⟩)

/-- Every member of a list equals its head when all are equal. -/
theorem all_eq_head_iff (vs : List Nat) : vs.all (· == vs.headD 0) = true ↔ ∀ a ∈ vs, ∀ b ∈ vs, a = b := by
  cases vs with
  | nil => simp
  | cons v vs =>
    simp only [List.all_eq_true, beq_iff_eq, List.headD_cons]
    exact ⟨fun h a ha b hb => (h a ha).trans (h b hb).symm, fun h a ha => h a ha v List.mem_cons_self⟩

/-- What a vote of a kind decides on the values of a subgroup (R145). -/
def voteHolds (kind : Nat) (vals : List Nat) : Bool :=
  match kind with
  | 0 => vals.all (· != 0)
  | 1 => vals.any (· != 0)
  | _ => vals.all (· == vals.headD 0)

theorem voteHolds_iff {kind : Nat} (hkind : kind ≤ 2) (js : List Nat) (a : Nat → Nat) (mine : Nat → Prop) (hmine : ∀ j, j ∈ js ↔ mine j) :
    voteHolds kind (js.map a) = true ↔
      (kind = 0 ∧ ∀ j, mine j → a j ≠ 0) ∨ (kind = 1 ∧ ∃ j, mine j ∧ a j ≠ 0) ∨ (kind = 2 ∧ ∀ i j, mine i → mine j → a i = a j) := by
  obtain rfl | rfl | rfl : kind = 0 ∨ kind = 1 ∨ kind = 2 := by omega
  · simp [voteHolds, hmine]
  · simp [voteHolds, hmine]
  · have huni : voteHolds 2 (js.map a) = true ↔ ∀ i j, mine i → mine j → a i = a j := by
      simp only [voteHolds, all_eq_head_iff, List.forall_mem_map, hmine]
      exact ⟨fun h i j hi hj => h i hi j hj, fun h i hi j hj => h i j hi hj⟩
    simp [huni]

theorem vectorResult_vvote (o : NOp) (s : State) (hw : (Instr.vvote o).wellFormed = true) (hread : s.readable (.vvote o) o.g) :
    let size := s.me.sgSize o.s2.ctlVal
    let mine (l j : Nat) : Prop := j < 32 ∧ (s.me.execSet o.g).has j = true ∧ j / size = l / size
    let a (j : Nat) := s.src o.ty o.s0 j
    vectorResult (.vvote o) o s false (fun l x fl => fl = 0 ∧
      let kind := o.s2.ctlVal / 8 % 4
      let truth := (kind = 0 ∧ ∀ j, mine l j → a j ≠ 0) ∨ (kind = 1 ∧ ∃ j, mine l j ∧ a j ≠ 0) ∨
        (kind = 2 ∧ ∀ i j, mine l i → mine l j → a i = a j)
      (truth → x = 0xFFFFFFFF) ∧ (¬ truth → x = 0)) := by
  intro size mine a
  obtain ⟨hspecial, -⟩ := Instr.wellFormed_sources rfl hw
  have hkind : o.s2.ctlVal / 8 % 4 ≤ 2 := by
    simp only [Instr.special3, Bool.and_eq_true, decide_eq_true_eq] at hspecial
    omega
  refine vectorResult_of_vop (show exec (.vvote o) s = execVvote o s from rfl) hread (fun l => ⟨rfl, ?_⟩)
  intro kind truth
  have htruth : voteHolds kind ((sgLanes size (s.me.execSet o.g) l).map a) = true ↔ truth :=
    voteHolds_iff hkind _ a (mine l) (fun j => mem_sgLanes (s.me.sgSize_pos _) _ j l)
  exact ⟨fun h => if_pos (htruth.2 h), fun h => if_neg (fun hv => h (htruth.1 hv))⟩

/-- VSHFL gives each lane the source of the lane that its mode names. -/
theorem vectorResult_vshfl (o : NOp) (s : State) (hread : s.tagRead (.vshfl o) = none) :
    vectorResult (.vshfl o) o s o.ty.is64 (fun l x fl => fl = 0 ∧
      let size := s.me.sgSize o.s2.ctlVal
      let n := s.src o.ty o.s1 l % 2 ^ o.ty.bits
      let j := l % size
      let mode := o.s2.ctlVal / 8 % 4
      (mode = 0 → x = s.src o.ty o.s0 (l - j + n % size)) ∧
      (mode = 1 → x = s.src o.ty o.s0 (if n ≤ j then l - n else l)) ∧
      (mode = 2 → x = s.src o.ty o.s0 (if j + n < size then l + n else l)) ∧
      (mode = 3 → x = s.src o.ty o.s0 (if j ^^^ (n % size) < size then l - j + (j ^^^ (n % size)) else l))) := by
  refine vectorResult_of_tagRead (show exec (.vshfl o) s = execVshfl o s from rfl) hread rfl (fun l => ⟨rfl, ?_⟩)
  intro size n j mode
  obtain ⟨habs, hup, hdown, hxor⟩ := shflLane_eq (s.me.sgSize_pos o.s2.ctlVal) n l
  have hfrom : s.shflFrom o l = shflLane size mode n l := rfl
  exact ⟨fun h => by rw [hfrom, h, habs], fun h => by rw [hfrom, h, hup], fun h => by rw [hfrom, h, hdown], fun h => by rw [hfrom, h, hxor]⟩

/-- VBCAST gives each lane the source of lane L of its subgroup. -/
theorem vectorResult_vbcast (o : NOp) (s : State) (hread : s.tagRead (.vbcast o) = none) :
    vectorResult (.vbcast o) o s o.ty.is64 (fun l x fl => fl = 0 ∧
      let size := s.me.sgSize o.s1.ctlVal
      x = s.src o.ty o.s0 (l - l % size + s.src .n32 o.s2 0 % 32 % size)) :=
  vectorResult_of_tagRead (show exec (.vbcast o) s = execVbcast o s from rfl) hread rfl (fun _ => ⟨rfl, rfl⟩)

/-- Settles O21: the lane read is `shflLane_eq`'s, the lane written is `putLane`, and a vote looks at the members of `mem_sgLanes`. -/
theorem laneMovesAndVotes : Obligations.LaneMovesAndVotes := by
  refine ⟨fun o s => ⟨fun _ => scalarResult_slane o s, fun _ hread hm hlive => ?_, fun _ hread hno => ?_⟩,
    fun o s => ⟨fun _ => vectorResult_vshfl o s, fun _ => vectorResult_vbcast o s⟩,
    fun o s => ⟨fun _ => vectorResult_vballot o s, fun _ => vectorResult_vmatch o s, vectorResult_vvote o s⟩⟩
  · have hput := exec_vput o s hread
    rw [State.putLane_live hm hlive] at hput
    refine ⟨_, ?_, hput⟩
    have hk : s.src .n32 o.s1 0 % 32 < 32 := Nat.mod_lt _ (by decide)
    rw [Lanes.at_ofFn _ hk, Mask.has_single, decide_eq_true hk, beq_self_eq_true]
    rfl
  · have hput := exec_vput o s hread
    rw [State.putLane_none hno] at hput
    exact ⟨_, hput⟩

end Sys2Proof.Machine
end
